-- ==== Sys2Proof/Config.lean ====
section
/-! DEFINITION. What an implementation of PQNP fixes and the spec leaves open (R7, `93_implementation_defined.md`
V2): the capacities of the three channels. They are opaque, so nothing can be proved of them beyond "at least 1".
Assumption log 3. -/

namespace Sys2Proof

/-- `CMD_DEPTH` less one (OPEN, R7, R42). -/
opaque Config.cmdSpare : Nat

/-- `OUT_DEPTH` less one (OPEN, R7, R42). -/
opaque Config.outSpare : Nat

/-- `RSP_DEPTH` less one (OPEN, R7, R42). -/
opaque Config.rspSpare : Nat

/-- `CMD_DEPTH`: an OPEN parameter, at least 1 (R42). -/
def Config.cmdDepth : Nat := Config.cmdSpare + 1

/-- `OUT_DEPTH`: an OPEN parameter, at least 1 (R42). -/
def Config.outDepth : Nat := Config.outSpare + 1

/-- `RSP_DEPTH`: an OPEN parameter, at least 1 (R42). -/
def Config.rspDepth : Nat := Config.rspSpare + 1

end Sys2Proof
end

