-- ==== Sys2Proof/Word.lean ====
section
/-! DEFINITION. The bit vectors the spec names, one name per width (`00_scope.md` R7), the colour triple, and the
names of the eight numbered registers (`10_state.md` R21). -/

namespace Sys2Proof

/-- A command word or a response word: 32 bits, whole (R92, R101, R72). -/
abbrev Word32 := BitVec 32

/-- An item of channel OUT: 8 bits (R91). -/
abbrev Byte := BitVec 8

/-- One colour component, 8 bits unsigned (R97, R134). -/
abbrev Comp := BitVec 8

/-- A grid dimension or a scan position, 16 bits (R7 `DIM_BITS`, R22, R23). -/
abbrev Dim := BitVec 16

/-- A palette index, 4 bits; all 16 values are used (R90). -/
abbrev PalIndex := BitVec 4

/-- One RGB triple: a pixel (R97) or a palette entry (R130). -/
structure Rgb where
  r : Comp
  g : Comp
  b : Comp
deriving DecidableEq, Repr

/-- The eight numbered registers of R21, in the order of their numbers 0 to 7. -/
inductive Reg where
  | status | width | height | xpos | ypos | hold | bytecnt | fcmd
deriving DecidableEq, Repr

end Sys2Proof
end

