-- ==== Sys2Proof/Assembly.lean ====
section
/-! DEFINITION. The assembler lines of R105 and the pseudo-instructions of R106, operands still plain numbers as
they are written. `WellFormed.lean` checks their ranges; `Machine/Assembler.lean` gives them their words. -/

namespace Sys2Proof

/-- One assembler line (R105) or pseudo-instruction (R106), operands not yet checked against their ranges. -/
inductive AsmLine where
  | nop
  | setw (d : Nat)
  | seth (d : Nat)
  | start
  | pix (r g b : Nat)
  | qry (r g b : Nat)
  | palrd (i : Nat)
  | rdreg (n : Nat)
  | clr
  /-- `.word v`: the literal 32-bit word `v`. -/
  | word (v : Nat)
  /-- `CONVERT w, h`. -/
  | convert (w h : Nat)
  /-- `ABORT`. -/
  | abort
  /-- `SYNC`: the command part only; waiting for the response is the host's act. -/
  | sync
  /-- `PIXHEX v`, a 24-bit value that R106 shows written `0xRRGGBB`. How else it may be written is the model's choice
  (DESIGN CHOICE, assumption log 9). -/
  | pixhex (v : Nat)
deriving DecidableEq, Repr

end Sys2Proof
end

