-- ==== Sys2Proof/Syntax.lean ====
section
/-! DEFINITION. The nine commands of R92, one constructor per row of `opcode_table.json`. Each operand has the
width its format gives it (R95 to R98), so an operand outside its range cannot be written. -/

namespace Sys2Proof

/-- A decoded command with its operands (R92, R93). -/
inductive Instr where
  /-- NOP, format N (R201). -/
  | nop
  /-- SETW, format D (R171). -/
  | setw (dim : Dim)
  /-- SETH, format D (R172). -/
  | seth (dim : Dim)
  /-- START, format N (R173). -/
  | start
  /-- PIX, format C (R175). -/
  | pix (r g b : Comp)
  /-- QRY, format C (R144). -/
  | qry (r g b : Comp)
  /-- PALRD, format I (R145). -/
  | palrd (idx : PalIndex)
  /-- RDREG, format R (R202). The 3-bit number is held as the register it names. -/
  | rdreg (reg : Reg)
  /-- CLR, format N (R204). -/
  | clr
deriving DecidableEq, Repr

end Sys2Proof
end

