-- ==== Sys2Proof/WellFormed.lean ====
section
/-! DEFINITION. Range checks. "An operand out of its range is an assembler error, not a word" (R105): the checks
bite on assembler lines, whose operands are plain numbers. A decoded command carries its ranges in its operand
types, so the same checks hold of every `Instr` (`Laws/Decode.lean`, `Instr.wellFormed_all`). -/

namespace Sys2Proof

/-- The operand ranges of R105 (and of R106, whose expansions must be lines of R105). -/
def AsmLine.wellFormed : AsmLine → Bool
  | .nop => true
  | .setw d => decide (d ≤ 65535)
  | .seth d => decide (d ≤ 65535)
  | .start => true
  | .pix r g b => decide (r ≤ 255) && decide (g ≤ 255) && decide (b ≤ 255)
  | .qry r g b => decide (r ≤ 255) && decide (g ≤ 255) && decide (b ≤ 255)
  | .palrd i => decide (i ≤ 15)
  | .rdreg n => decide (n ≤ 7)
  | .clr => true
  | .word v => decide (v < 2 ^ 32)
  | .convert w h => decide (w ≤ 65535) && decide (h ≤ 65535)
  | .abort => true
  | .sync => true
  | .pixhex v => decide (v < 2 ^ 24)

/-- The same ranges on a decoded command (R95, R97, R98). -/
def Instr.wellFormed : Instr → Bool
  | .nop => true
  | .setw dim => decide (dim.toNat ≤ 65535)
  | .seth dim => decide (dim.toNat ≤ 65535)
  | .start => true
  | .pix r g b => decide (r.toNat ≤ 255) && decide (g.toNat ≤ 255) && decide (b.toNat ≤ 255)
  | .qry r g b => decide (r.toNat ≤ 255) && decide (g.toNat ≤ 255) && decide (b.toNat ≤ 255)
  | .palrd idx => decide (idx.toNat ≤ 15)
  | .rdreg _ => true
  | .clr => true

end Sys2Proof
end

