-- ==== Sys2Proof/Decode.lean ====
section
/-! DEFINITION. The command word (`30_encoding.md` R92 to R100): fields, the decoder, the encoder, and the
mask-and-match table R93 calls equivalent. A word is a whole 32-bit item (R72): nothing here has a byte order. -/

namespace Sys2Proof

/-- Why a word is illegal (R99). -/
inductive IllegalWord where
  /-- The opcode is 0x9 to 0xF. -/
  | reservedOpcode
  /-- A reserved bit of the word's format is 1. -/
  | reservedBits
deriving DecidableEq, Repr

/-- One row of `opcode_table.json`: a word is the row's command exactly when `word &&& mask = value` (R93). -/
structure TableRow where
  mnemonic : String
  mask : Word32
  value : Word32
deriving DecidableEq, Repr

/-- The number of a register, R21. -/
def Reg.num : Reg → BitVec 3
  | .status => 0
  | .width => 1
  | .height => 2
  | .xpos => 3
  | .ypos => 4
  | .hold => 5
  | .bytecnt => 6
  | .fcmd => 7

/-- The register a number names; all eight numbers are legal (R21, R98). -/
def regOfNum (n : BitVec 3) : Reg :=
  match n.toNat with
  | 0 => .status
  | 1 => .width
  | 2 => .height
  | 3 => .xpos
  | 4 => .ypos
  | 5 => .hold
  | 6 => .bytecnt
  | _ => .fcmd

/-- `w[31:28]` (R92). -/
def opcodeOf (w : Word32) : BitVec 4 := w.extractLsb' 28 4

/-- `dim = w[15:0]` (R95). -/
def dimOf (w : Word32) : Dim := w.extractLsb' 0 16

/-- `r = w[23:16]` (R97). -/
def redOf (w : Word32) : Comp := w.extractLsb' 16 8

/-- `g = w[15:8]` (R97). -/
def greenOf (w : Word32) : Comp := w.extractLsb' 8 8

/-- `b = w[7:0]` (R97). -/
def blueOf (w : Word32) : Comp := w.extractLsb' 0 8

/-- `idx = w[3:0]` (R98). -/
def idxOf (w : Word32) : PalIndex := w.extractLsb' 0 4

/-- `reg = w[2:0]` (R98). -/
def regOf (w : Word32) : Reg := regOfNum (w.extractLsb' 0 3)

/-- The command `i` if the reserved field of its format is all zero, else illegal (R93). -/
def unlessReserved {n : Nat} (reserved : BitVec n) (i : Instr) : Except IllegalWord Instr :=
  if reserved = 0 then .ok i else .error .reservedBits

/-- R93: total, independent of the state of the block. The reserved fields are those of formats N (R94), D (R95),
C (R96), I and R (R98). -/
def decode (w : Word32) : Except IllegalWord Instr :=
  match (opcodeOf w).toNat with
  | 0 => unlessReserved (w.extractLsb' 0 28) .nop
  | 1 => unlessReserved (w.extractLsb' 16 12) (.setw (dimOf w))
  | 2 => unlessReserved (w.extractLsb' 16 12) (.seth (dimOf w))
  | 3 => unlessReserved (w.extractLsb' 0 28) .start
  | 4 => unlessReserved (w.extractLsb' 24 4) (.pix (redOf w) (greenOf w) (blueOf w))
  | 5 => unlessReserved (w.extractLsb' 24 4) (.qry (redOf w) (greenOf w) (blueOf w))
  | 6 => unlessReserved (w.extractLsb' 4 24) (.palrd (idxOf w))
  | 7 => unlessReserved (w.extractLsb' 3 25) (.rdreg (regOf w))
  | 8 => unlessReserved (w.extractLsb' 0 28) .clr
  | _ => .error .reservedOpcode

/-- The 24 bits `{R, G, B}` of a colour (R8, R72, R130). -/
def rgbBits (p : Rgb) : BitVec 24 := p.r ++ p.g ++ p.b

/-- The word of a command: opcode, zero reserved bits, operands (R92, R94 to R98). -/
def encode : Instr → Word32
  | .nop => 0x0#4 ++ 0#28
  | .setw dim => 0x1#4 ++ 0#12 ++ dim
  | .seth dim => 0x2#4 ++ 0#12 ++ dim
  | .start => 0x3#4 ++ 0#28
  | .pix r g b => 0x4#4 ++ 0#4 ++ rgbBits ⟨r, g, b⟩
  | .qry r g b => 0x5#4 ++ 0#4 ++ rgbBits ⟨r, g, b⟩
  | .palrd idx => 0x6#4 ++ 0#24 ++ idx
  | .rdreg reg => 0x7#4 ++ 0#25 ++ reg.num
  | .clr => 0x8#4 ++ 0#28

/-- The masks and matches of R94 to R98, row by row as `opcode_table.json` has them. -/
def opcodeTable : List TableRow :=
  [⟨"NOP", 0xFFFFFFFF, 0x00000000⟩, ⟨"SETW", 0xFFFF0000, 0x10000000⟩, ⟨"SETH", 0xFFFF0000, 0x20000000⟩,
   ⟨"START", 0xFFFFFFFF, 0x30000000⟩, ⟨"PIX", 0xFF000000, 0x40000000⟩, ⟨"QRY", 0xFF000000, 0x50000000⟩,
   ⟨"PALRD", 0xFFFFFFF0, 0x60000000⟩, ⟨"RDREG", 0xFFFFFFF8, 0x70000000⟩, ⟨"CLR", 0xFFFFFFFF, 0x80000000⟩]

/-- The mnemonic of a command (R92). -/
def Instr.mnemonic : Instr → String
  | .nop => "NOP"
  | .setw _ => "SETW"
  | .seth _ => "SETH"
  | .start => "START"
  | .pix _ _ _ => "PIX"
  | .qry _ _ _ => "QRY"
  | .palrd _ => "PALRD"
  | .rdreg _ => "RDREG"
  | .clr => "CLR"

/-- R93: `(w & mask) = match` for this row. -/
def TableRow.matches (row : TableRow) (w : Word32) : Bool := w &&& row.mask == row.value

/-- The command this decoder reads from the first `nbits` bits of `w`, the bits above them zero. Every row has 32
bits and one word. -/
def decodeTableWord (nbits w : Nat) : Option Instr :=
  (decode (BitVec.ofNat 32 (w % 2 ^ nbits))).toOption

end Sys2Proof
end

