-- ==== Sys2Proof/Machine/State.lean ====
section
/-! DEFINITION. The state tuple of R20, whole, and its reset values (R20, R260). -/

namespace Sys2Proof.Machine

/-- The sequencer state `STATE` (R31). -/
inductive Sequencer where
  /-- No run is open: configuration and START are accepted. -/
  | idle
  /-- A run is open: pixel beats are accepted. -/
  | run
  /-- A fault was taken and not yet cleared. -/
  | fault
deriving DecidableEq, Repr

/-- The fault cause `CAUSE`: codes 0 to 4 of R221. Codes 5 to 15 are never produced (R35), so the type has five
values (`93_implementation_defined.md` V5; assumption log 6). -/
inductive Cause where
  /-- Code 0: the block is not in FAULT. -/
  | noFault
  /-- Code 1: an illegal word (R222). -/
  | illcmd
  /-- Code 2: START with a zero dimension (R225). -/
  | baddim
  /-- Code 3: PIX in IDLE (R223). -/
  | overrun
  /-- Code 4: SETW, SETH or START in RUN (R224). -/
  | underrun
deriving DecidableEq, Repr

/-- Why the MACHINE of `Host.Core` could stop. Nothing stops it: a PQNP fault is a next state (`STATE = FAULT`,
R226), a held command waits (R43), and PQNP has no other exceptional event (R220). So the type has no
constructor; that no step ends here is exact, neither safe nor unsafe. Assumption log 2. -/
inductive Fault
deriving DecidableEq, Repr

/-- Why the model could decline an instruction. -/
inductive Refusal where
  /-- An instruction with no meaning yet. Raised only by an arm of `exec`; no arm raises it now. Safe: the run
  stops where the block would go on. -/
  | notModelled (mnemonic : String)
deriving DecidableEq, Repr

/-- The complete state of one PQNP block (R20). The palette is a constant, not state (R27). Queues are listed head
first. -/
structure State where
  /-- `STATE`. -/
  seq : Sequencer
  /-- `DONE` (R33). -/
  done : Bool
  /-- `ODDW` (R34). -/
  oddw : Bool
  /-- `CAUSE` (R35). -/
  cause : Cause
  /-- `WIDTH` (R22). -/
  width : Dim
  /-- `HEIGHT` (R22). -/
  height : Dim
  /-- `XPOS` (R23). -/
  xpos : Dim
  /-- `YPOS` (R23). -/
  ypos : Dim
  /-- `HOLD` (R24). -/
  hold : PalIndex
  /-- `BYTECNT` (R25). -/
  bytecnt : Word32
  /-- `FCMD` (R26). -/
  fcmd : Word32
  /-- Channel CMD, host to block (R40). -/
  cmd : List Word32
  /-- Channel OUT, block to host (R40). -/
  out : List Byte
  /-- Channel RSP, block to host (R40). -/
  rsp : List Word32
deriving DecidableEq, Repr

/-- R20, R260: IDLE, every register and flag 0, the three channels empty. -/
def State.reset : State where
  seq := .idle
  done := false
  oddw := false
  cause := .noFault
  width := 0
  height := 0
  xpos := 0
  ypos := 0
  hold := 0
  bytecnt := 0
  fcmd := 0
  cmd := []
  out := []
  rsp := []

end Sys2Proof.Machine
end

