-- ==== Sys2Proof/Machine/Ops.lean ====
section
/-! DEFINITION. The operations every command is made of: the three channels (R40 to R43), taking a fault (R226)
and returning from one (R204, R230). -/

namespace Sys2Proof.Machine

/-- Whether a queue of capacity `spare + 1` holds fewer items than that (R43). It recurses on the queue, so an empty
queue has room whatever the capacity. -/
def hasRoom {α : Type} : List α → Nat → Bool
  | [], _ => true
  | _ :: _, 0 => false
  | _ :: q, spare + 1 => hasRoom q spare

/-- CMD has room for a word (R266). -/
def State.cmdHasRoom (s : State) : Bool := hasRoom s.cmd Config.cmdSpare

/-- OUT has room for a byte (R43). -/
def State.outHasRoom (s : State) : Bool := hasRoom s.out Config.outSpare

/-- RSP has room for a word (R43). -/
def State.rspHasRoom (s : State) : Bool := hasRoom s.rsp Config.rspSpare

/-- The block removes the head of CMD (R10, R41). -/
def State.popCmd (s : State) : State := { s with cmd := s.cmd.tail }

/-- `push(OUT, b)` (R41). -/
def State.pushOut (b : Byte) (s : State) : State := { s with out := s.out ++ [b] }

/-- `push(RSP, v)` (R41). -/
def State.pushRsp (v : Word32) (s : State) : State := { s with rsp := s.rsp ++ [v] }

/-- A command that takes its word and has no other effect: NOP (R201), or a command discarded in FAULT (R228). -/
def State.discard (s : State) : State := s.popCmd

/-- A command that takes its word and pushes one response (R101). -/
def State.respond (v : Word32) (s : State) : State := s.popCmd.pushRsp v

/-- TAKING A FAULT, R226: `raise Fault(c)` for the word `w` at the head of CMD. The word is removed; nothing else
changes but STATE, CAUSE and FCMD. -/
def State.takeFault (c : Cause) (w : Word32) (s : State) : State :=
  { s.popCmd with seq := .fault, cause := c, fcmd := w }

/-- RETURN FROM A FAULT (R230) and abort of a run: the register writes of CLR (R204). WIDTH, HEIGHT, OUT and RSP
keep their contents. -/
def State.clearSequencer (s : State) : State :=
  { s with
    seq := .idle, done := false, oddw := false, cause := .noFault, fcmd := 0,
    xpos := 0, ypos := 0, hold := 0, bytecnt := 0 }

/-- An illegal word at the head of CMD (R99, R222, R228): discarded in FAULT, else the fault ILLCMD. -/
def State.illegalWord (w : Word32) (s : State) : State :=
  match s.seq with
  | .fault => s.discard
  | .idle => s.takeFault .illcmd w
  | .run => s.takeFault .illcmd w

/-- R43: if the channel the rule pushes to has room, the step happens and gives `t`; else the command is held at the
head of CMD and nothing changes. -/
def whenRoom (room : Bool) (t s : State) : Host.Outcome State Fault Refusal :=
  .next (if room then t else s)

end Sys2Proof.Machine
end

