-- ==== Sys2Proof/Machine/Operands.lean ====
section
/-! DEFINITION. What the operands of a command select: a palette entry (R130), the nearest entry of a colour
(R135, R136), and the forms of the response words (R102 to R104). -/

namespace Sys2Proof.Machine

/-- The palette, R130, index 0 first. A constant (R27, R133): no command, fault or reset changes it. -/
def paletteTable : Vector Rgb 16 :=
  #v[⟨0, 0, 0⟩, ⟨188, 0, 0⟩, ⟨0, 237, 0⟩, ⟨194, 212, 0⟩,
     ⟨0, 0, 232⟩, ⟨189, 0, 199⟩, ⟨0, 220, 194⟩, ⟨220, 218, 221⟩,
     ⟨117, 117, 117⟩, ⟨223, 0, 0⟩, ⟨0, 255, 0⟩, ⟨246, 255, 3⟩,
     ⟨84, 71, 251⟩, ⟨239, 0, 253⟩, ⟨13, 255, 248⟩, ⟨255, 255, 255⟩]

/-- `PAL[i]`, the read `MemRead(i, 3)` of R9. -/
def palette (i : PalIndex) : Rgb := paletteTable.get i.toFin

/-- The square of the difference of two components, in the integers: it does not wrap modulo 256 (R135). -/
def diffSquared (a b : Comp) : Nat := ((a.toNat : Int) - (b.toNat : Int)).natAbs ^ 2

/-- The squared Euclidean distance `d(i)` of R135. -/
def distance (p : Rgb) (i : PalIndex) : Nat :=
  diffSquared p.r (palette i).r + diffSquared p.g (palette i).g + diffSquared p.b (palette i).b

/-- The "infinite" initial distance: the 18-bit all-ones value (R137). -/
def infiniteDistance : Nat := 262143

/-- The indices 0 to 15 in the order of the scan (R136). -/
def paletteIndices : List PalIndex := [0, 1, 2, 3, 4, 5, 6, 7, 8, 9, 10, 11, 12, 13, 14, 15]

/-- The left-to-right scan of R136 with its strict comparison, from the best distance and index so far. -/
def scanNearest (p : Rgb) : List PalIndex → Nat → PalIndex → PalIndex
  | [], _, bestI => bestI
  | i :: rest, bestD, bestI =>
    if distance p i < bestD then scanNearest p rest (distance p i) i else scanNearest p rest bestD bestI

/-- `nearest(r, g, b)` (R134, R136). -/
def nearest (p : Rgb) : PalIndex := scanNearest p paletteIndices infiniteDistance 0

/-- Response of QRY: bits 3:0 the index, bits 31:4 zero (R102). -/
def indexWord (i : PalIndex) : Word32 := 0#28 ++ i

/-- Response of PALRD: bits 23:0 the entry `{R, G, B}`, bits 31:24 zero (R103). -/
def colourWord (p : Rgb) : Word32 := 0#8 ++ rgbBits p

/-- The output byte `(idx1 << 4) | (idx2 & 0xF)`: left index in bits 7:4, right index in bits 3:0 (R66, R164). -/
def packByte (left right : PalIndex) : Byte := left ++ right

end Sys2Proof.Machine
end

