-- ==== Sys2Proof/Machine/Flags.lean ====
section
/-! DEFINITION. STATUS and the registers as a read sees them (R21, R32), the odd-width flag (R34), and the
conditions on the scan position that PIX tests (R175). -/

namespace Sys2Proof.Machine

/-- The code of a cause (R221). -/
def Cause.code : Cause → BitVec 4
  | .noFault => 0
  | .illcmd => 1
  | .baddim => 2
  | .overrun => 3
  | .underrun => 4

/-- `BUSY`: STATE is RUN (R32). -/
def State.busy (s : State) : Bool := s.seq == .run

/-- The `FAULT` bit: STATE is FAULT (R32). -/
def State.faulted (s : State) : Bool := s.seq == .fault

/-- STATUS (R32): BUSY in bit 0, DONE in 1, ODDW in 2, FAULT in 3, CAUSE in 7:4, bits 31:8 zero. -/
def State.statusWord (s : State) : Word32 :=
  0#24 ++ s.cause.code ++ BitVec.ofBool s.faulted ++ BitVec.ofBool s.oddw ++ BitVec.ofBool s.done
    ++ BitVec.ofBool s.busy

/-- A register zero-extended to 32 bits (R21, R104). -/
def State.readReg (s : State) : Reg → Word32
  | .status => s.statusWord
  | .width => s.width.setWidth 32
  | .height => s.height.setWidth 32
  | .xpos => s.xpos.setWidth 32
  | .ypos => s.ypos.setWidth 32
  | .hold => s.hold.setWidth 32
  | .bytecnt => s.bytecnt
  | .fcmd => s.fcmd

/-- `WIDTH[0]`: the width is odd (R34). -/
def State.oddWidth (s : State) : Bool := s.width.getLsbD 0

/-- START's own value check (R173, R225): a dimension is zero. -/
def State.badDimension (s : State) : Bool := s.width == 0 || s.height == 0

/-- `last_col` of R175: `XPOS + 1 = WIDTH`, in the integers (assumption log 5). -/
def State.lastColumn (s : State) : Bool := s.xpos.toNat + 1 == s.width.toNat

/-- The pixel is in the last row: not `YPOS + 1 < HEIGHT` (R175). -/
def State.lastRow (s : State) : Bool := !decide (s.ypos.toNat + 1 < s.height.toNat)

/-- `XPOS[0] = 1`: the right pixel of a pair (R23, R175). -/
def State.rightPixel (s : State) : Bool := s.xpos.getLsbD 0

/-- The beat pushes a byte: XPOS is odd or `XPOS + 1 = WIDTH` (R43, R176). -/
def State.beatPushes (s : State) : Bool := s.rightPixel || s.lastColumn

end Sys2Proof.Machine
end

