-- ==== Sys2Proof/Machine/Packer.lean ====
section
/-! DEFINITION. The commands of the Packer, SETW, SETH, START and PIX (`41_packer.md` section 2). A faulting
command's word is its own encoding, which is the word at the head of CMD (assumption log 4). -/

namespace Sys2Proof.Machine

/-- The rule of SETW (R171). -/
def ruleSetw (dim : Dim) (s : State) : State :=
  match s.seq with
  | .run => s.takeFault .underrun (encode (.setw dim))
  | .fault => s.discard
  | .idle => { s.popCmd with width := dim }

/-- SETW (R171): never held. -/
def execSetw (dim : Dim) (s : State) : Host.Outcome State Fault Refusal := .next (ruleSetw dim s)

/-- The rule of SETH (R172). -/
def ruleSeth (dim : Dim) (s : State) : State :=
  match s.seq with
  | .run => s.takeFault .underrun (encode (.seth dim))
  | .fault => s.discard
  | .idle => { s.popCmd with height := dim }

/-- SETH (R172): never held. -/
def execSeth (dim : Dim) (s : State) : Host.Outcome State Fault Refusal := .next (ruleSeth dim s)

/-- Opening a run: the writes of an accepted START (R173). -/
def State.openRun (s : State) : State :=
  { s with
    xpos := 0, ypos := 0, hold := 0, bytecnt := 0, done := false, oddw := s.oddWidth, seq := .run }

/-- The rule of START (R173). -/
def ruleStart (s : State) : State :=
  match s.seq with
  | .run => s.takeFault .underrun (encode .start)
  | .fault => s.discard
  | .idle => if s.badDimension then s.takeFault .baddim (encode .start) else s.popCmd.openRun

/-- START (R173): never held. -/
def execStart (s : State) : Host.Outcome State Fault Refusal := .next (ruleStart s)

/-- A left pixel whose right neighbour is still to come: the index waits in HOLD (R175). -/
def State.holdLeft (idx : PalIndex) (s : State) : State := { s with hold := idx, xpos := s.xpos + 1 }

/-- The byte of a beat that pushes: `{HOLD, idx}` for a right pixel, `{idx, 0}` for a left pixel with no right
neighbour, 0 being the filler (R163, R175). -/
def State.beatByte (idx : PalIndex) (s : State) : Byte :=
  if s.rightPixel then packByte s.hold idx else packByte idx 0

/-- The position after a beat that pushes: the next column, the next row, or the end of the run (R175). -/
def State.advance (s : State) : State :=
  if s.lastColumn then
    if s.lastRow then { s with xpos := 0, ypos := 0, seq := .idle, done := true }
    else { s with xpos := 0, ypos := s.ypos + 1 }
  else { s with xpos := s.xpos + 1 }

/-- One beat of an open run, the pixel's index already found (R175). -/
def State.beat (idx : PalIndex) (s : State) : State :=
  if s.beatPushes then
    { (s.pushOut (s.beatByte idx)) with bytecnt := s.bytecnt + 1, hold := 0 }.advance
  else s.holdLeft idx

/-- The rule of PIX (R175). -/
def rulePix (r g b : Comp) (s : State) : State :=
  match s.seq with
  | .idle => s.takeFault .overrun (encode (.pix r g b))
  | .fault => s.discard
  | .run => s.popCmd.beat (nearest ⟨r, g, b⟩)

/-- Whether the rule of PIX pushes a byte in this state (R43, R175). -/
def pixPushes (s : State) : Bool := s.busy && s.beatPushes

/-- PIX (R175): held while it would push a byte and OUT is full. -/
def execPix (r g b : Comp) (s : State) : Host.Outcome State Fault Refusal :=
  whenRoom (!pixPushes s || s.outHasRoom) (rulePix r g b s) s

end Sys2Proof.Machine
end

