-- ==== Sys2Proof/Machine/Palette.lean ====
section
/-! DEFINITION. The commands of the Palette, QRY and PALRD (`40_palette.md` section 3). -/

namespace Sys2Proof.Machine

/-- The rule of QRY (R144): `push(RSP, zext_32(nearest(r, g, b)))`. -/
def ruleQry (r g b : Comp) (s : State) : State := s.respond (indexWord (nearest ⟨r, g, b⟩))

/-- QRY (R144): held while RSP is full. -/
def execQry (r g b : Comp) (s : State) : Host.Outcome State Fault Refusal :=
  whenRoom s.rspHasRoom (ruleQry r g b s) s

/-- The rule of PALRD (R145): `push(RSP, zext_32(MemRead(idx, 3)))`. -/
def rulePalrd (idx : PalIndex) (s : State) : State := s.respond (colourWord (palette idx))

/-- PALRD (R145): held while RSP is full. -/
def execPalrd (idx : PalIndex) (s : State) : Host.Outcome State Fault Refusal :=
  whenRoom s.rspHasRoom (rulePalrd idx s) s

end Sys2Proof.Machine
end

