-- ==== Sys2Proof/Machine/System.lean ====
section
/-! DEFINITION. The system commands NOP, RDREG and CLR (`42_system.md`). Each command has its rule, the state it
gives when the step happens, and its meaning, which adds the holding of R43 where the rule pushes. -/

namespace Sys2Proof.Machine

/-- The rule of NOP (R201). -/
def ruleNop (s : State) : State := s.discard

/-- NOP (R201): never held. -/
def execNop (s : State) : Host.Outcome State Fault Refusal := .next (ruleNop s)

/-- The rule of RDREG (R202): `push(RSP, x[reg])`. -/
def ruleRdreg (reg : Reg) (s : State) : State := s.respond (s.readReg reg)

/-- RDREG (R202): held while RSP is full. -/
def execRdreg (reg : Reg) (s : State) : Host.Outcome State Fault Refusal :=
  whenRoom s.rspHasRoom (ruleRdreg reg s) s

/-- The rule of CLR (R204). -/
def ruleClr (s : State) : State := s.popCmd.clearSequencer

/-- CLR (R204): never held. -/
def execClr (s : State) : Host.Outcome State Fault Refusal := .next (ruleClr s)

end Sys2Proof.Machine
end

