-- ==== Sys2Proof/Machine/Dispatch.lean ====
section
/-! DEFINITION. One arm per command (R10, R92). -/

namespace Sys2Proof.Machine

def exec (i : Instr) (s : State) : Host.Outcome State Fault Refusal :=
  match i with
  | .nop => Sys2Proof.Machine.execNop s
  | .setw dim => Sys2Proof.Machine.execSetw dim s
  | .seth dim => Sys2Proof.Machine.execSeth dim s
  | .start => Sys2Proof.Machine.execStart s
  | .pix r g b => Sys2Proof.Machine.execPix r g b s
  | .qry r g b => Sys2Proof.Machine.execQry r g b s
  | .palrd idx => Sys2Proof.Machine.execPalrd idx s
  | .rdreg reg => Sys2Proof.Machine.execRdreg reg s
  | .clr => Sys2Proof.Machine.execClr s

end Sys2Proof.Machine
end

