-- ==== Sys2Proof/Machine/Fetch.lean ====
section
/-! DEFINITION. Where the next command comes from: the head of CMD (R10, R30). -/

namespace Sys2Proof.Machine

/-- The word at the head of CMD, if there is one (R10). -/
def State.fetch (s : State) : Option Word32 := s.cmd.head?

/-- The state with `w` standing at the head of CMD, in place of the word that stood there if one did. -/
def State.placeAtHead (w : Word32) (s : State) : State := { s with cmd := w :: s.cmd.tail }

end Sys2Proof.Machine
end

