-- ==== Sys2Proof/Machine/Step.lean ====
section
/-! DEFINITION. One step of the block (R10). -/

namespace Sys2Proof.Machine

/-- R10: take the word at the head of CMD and apply the rule its decoding selects. With CMD empty the step is not
enabled and changes nothing (R43); the block waits, it does not stop (assumption log 2). -/
def step (s : State) : Host.Outcome State Fault Refusal :=
  match s.fetch with
  | none => .next s
  | some w =>
    match decode w with
    | .ok i => exec i s
    | .error _ => .next (s.illegalWord w)

/-- The state with a table word where `step` fetches: at the head of CMD. It stands for the host's append to an empty
CMD (assumption log 1). -/
def State.withFetchWord (s : State) (nbits w : Nat) : State :=
  s.placeAtHead (BitVec.ofNat 32 (w % 2 ^ nbits))

end Sys2Proof.Machine
end

