-- ==== Sys2Proof/Machine/Assembler.lean ====
section
/-! DEFINITION. The assembler syntax of R105 and the pseudo-instructions of R106. -/

namespace Sys2Proof.Machine

/-- The expansion of a pseudo-instruction into lines of R105; any other line stands for itself (R106). -/
def expandPseudo : AsmLine → List AsmLine
  | .nop => [.nop]
  | .setw d => [.setw d]
  | .seth d => [.seth d]
  | .start => [.start]
  | .pix r g b => [.pix r g b]
  | .qry r g b => [.qry r g b]
  | .palrd i => [.palrd i]
  | .rdreg n => [.rdreg n]
  | .clr => [.clr]
  | .word v => [.word v]
  | .convert w h => [.setw w, .seth h, .start]
  | .abort => [.clr]
  | .sync => [.rdreg 0]
  | .pixhex v => [.pix (v / 65536 % 256) (v / 256 % 256) (v % 256)]

/-- The word of one line of R105, its operands in range. A pseudo-instruction has no word of its own. -/
def lineWord : AsmLine → Option Word32
  | .nop => some (encode .nop)
  | .setw d => some (encode (.setw (BitVec.ofNat 16 d)))
  | .seth d => some (encode (.seth (BitVec.ofNat 16 d)))
  | .start => some (encode .start)
  | .pix r g b => some (encode (.pix (BitVec.ofNat 8 r) (BitVec.ofNat 8 g) (BitVec.ofNat 8 b)))
  | .qry r g b => some (encode (.qry (BitVec.ofNat 8 r) (BitVec.ofNat 8 g) (BitVec.ofNat 8 b)))
  | .palrd i => some (encode (.palrd (BitVec.ofNat 4 i)))
  | .rdreg n => some (encode (.rdreg (regOfNum (BitVec.ofNat 3 n))))
  | .clr => some (encode .clr)
  | .word v => some (BitVec.ofNat 32 v)
  | .convert _ _ => none
  | .abort => none
  | .sync => none
  | .pixhex _ => none

/-- The words of a line, or `none`: an operand out of its range is an assembler error (R105). -/
def assemble (line : AsmLine) : Option (List Word32) :=
  if line.wellFormed then (expandPseudo line).mapM lineWord else none

/-- The value of a decimal digit. -/
def decDigit (c : Char) : Option Nat :=
  if '0' ≤ c ∧ c ≤ '9' then some (c.toNat - 48) else none

/-- The value of a hexadecimal digit, letters of either case (assumption log 9). -/
def hexDigit (c : Char) : Option Nat :=
  if '0' ≤ c ∧ c ≤ '9' then some (c.toNat - 48)
  else if 'A' ≤ c ∧ c ≤ 'F' then some (c.toNat - 55)
  else if 'a' ≤ c ∧ c ≤ 'f' then some (c.toNat - 87)
  else none

/-- A non-empty run of digits in a base, from the value of the digits already read. -/
def digitsFrom (base : Nat) (digit : Char → Option Nat) : Nat → List Char → Option Nat
  | n, [] => some n
  | n, c :: cs =>
    match digit c with
    | some d => digitsFrom base digit (base * n + d) cs
    | none => none

/-- A number in decimal or with the `0x` of hexadecimal (R105). The count of digits is free, also for the operand of
PIXHEX, which R106 shows with six hexadecimal digits only: DESIGN CHOICE, assumption log 9. -/
def parseNumber : List Char → Option Nat
  | [] => none
  | '0' :: 'x' :: c :: cs => digitsFrom 16 hexDigit 0 (c :: cs)
  | c :: cs => digitsFrom 10 decDigit 0 (c :: cs)

/-- White space within a line: space or tab (assumption log 9). -/
def isBlank (c : Char) : Bool := c == ' ' || c == '\t'

/-- The text without white space at its two ends. -/
def trimText (cs : List Char) : List Char :=
  ((cs.dropWhile isBlank).reverse.dropWhile isBlank).reverse

/-- The text cut at every comma, from the characters of the piece already read, latest first. -/
def cutAtCommas : List Char → List Char → List (List Char)
  | piece, [] => [piece.reverse]
  | piece, c :: cs => if c = ',' then piece.reverse :: cutAtCommas [] cs else cutAtCommas (c :: piece) cs

/-- The operands of a line, separated by commas (R105). -/
def operandTexts (cs : List Char) : List (List Char) :=
  if cs = [] then [] else (cutAtCommas [] cs).map trimText

/-- The number of a register written by its name (R105, R21). -/
def registerNumber (cs : List Char) : Option Nat :=
  if cs = "STATUS".toList then some 0
  else if cs = "WIDTH".toList then some 1
  else if cs = "HEIGHT".toList then some 2
  else if cs = "XPOS".toList then some 3
  else if cs = "YPOS".toList then some 4
  else if cs = "HOLD".toList then some 5
  else if cs = "BYTECNT".toList then some 6
  else if cs = "FCMD".toList then some 7
  else none

/-- An operand: a number, or for RDREG also a register name (R105). -/
def parseOperand (named : Bool) (cs : List Char) : Option Nat :=
  match parseNumber cs with
  | some n => some n
  | none => if named then registerNumber cs else none

/-- The line a mnemonic and its operands make; `none` where no line of R105 or R106 has that shape. -/
def lineOf (mnemonic : List Char) (ops : List Nat) : Option AsmLine :=
  match ops with
  | [] =>
    if mnemonic = "NOP".toList then some .nop
    else if mnemonic = "START".toList then some .start
    else if mnemonic = "CLR".toList then some .clr
    else if mnemonic = "ABORT".toList then some .abort
    else if mnemonic = "SYNC".toList then some .sync
    else none
  | [a] =>
    if mnemonic = "SETW".toList then some (.setw a)
    else if mnemonic = "SETH".toList then some (.seth a)
    else if mnemonic = "PALRD".toList then some (.palrd a)
    else if mnemonic = "RDREG".toList then some (.rdreg a)
    else if mnemonic = ".word".toList then some (.word a)
    else if mnemonic = "PIXHEX".toList then some (.pixhex a)
    else none
  | [a, b] => if mnemonic = "CONVERT".toList then some (.convert a b) else none
  | [a, b, c] =>
    if mnemonic = "PIX".toList then some (.pix a b c)
    else if mnemonic = "QRY".toList then some (.qry a b c)
    else none
  | _ => none

/-- One line of text: `;` starts a comment; a line with nothing before it has no words (R105). -/
def assembleText (text : List Char) : Option (List Word32) :=
  let code := trimText (text.takeWhile (· != ';'))
  if code = [] then some []
  else
    let mnemonic := code.takeWhile (fun c => !isBlank c)
    let rest := trimText (code.dropWhile (fun c => !isBlank c))
    match (operandTexts rest).mapM (parseOperand (mnemonic = "RDREG".toList)) with
    | none => none
    | some ops =>
      match lineOf mnemonic ops with
      | none => none
      | some line => assemble line

/-- A program: its lines' words one after another, in order (R105). -/
def assembleProgram (lines : List (List Char)) : Option (List Word32) :=
  (lines.mapM assembleText).map List.flatten

end Sys2Proof.Machine
end

