-- ==== Sys2Proof/Machine/Channels.lean ====
section
/-! DEFINITION. The block and the host around it: when a step is enabled (R43), what the host may do (R266), and the
block as it would run with unbounded channels (R42), which no holding delays (R272). -/

namespace Sys2Proof.Machine

/-- The pixel a command carries if it is a PIX (R97, R175). -/
def pixelOfCommand (i : Instr) : Option Rgb :=
  match i with
  | .nop => none
  | .setw _ => none
  | .seth _ => none
  | .start => none
  | .pix r g b => some ⟨r, g, b⟩
  | .qry _ _ _ => none
  | .palrd _ => none
  | .rdreg _ => none
  | .clr => none

/-- The pixel a word carries if it is a PIX. -/
def pixelOf (w : Word32) : Option Rgb :=
  match decode w with
  | .ok i => pixelOfCommand i
  | .error _ => none

/-- The rule selected for `w` in this state pushes a byte to OUT (R43): a PIX beat that completes a byte. -/
def wordPushesOut (w : Word32) (s : State) : Bool :=
  match pixelOf w with
  | some _ => pixPushes s
  | none => false

/-- The command answers with a word on RSP, in any state (R101): QRY, PALRD, RDREG. -/
def answers (i : Instr) : Bool :=
  match i with
  | .nop => false
  | .setw _ => false
  | .seth _ => false
  | .start => false
  | .pix _ _ _ => false
  | .qry _ _ _ => true
  | .palrd _ => true
  | .rdreg _ => true
  | .clr => false

/-- The rule selected for `w` pushes a word to RSP (R43, R101). -/
def wordPushesRsp (w : Word32) : Bool :=
  match decode w with
  | .ok i => answers i
  | .error _ => false

/-- The response a command pushes when its step happens in state `s` (R101 to R104). -/
def responseOf (i : Instr) (s : State) : Option Word32 :=
  match i with
  | .nop => none
  | .setw _ => none
  | .seth _ => none
  | .start => none
  | .pix _ _ _ => none
  | .qry r g b => some (indexWord (nearest ⟨r, g, b⟩))
  | .palrd idx => some (colourWord (palette idx))
  | .rdreg reg => some (s.readReg reg)
  | .clr => none

/-- The response the word `w` pushes when its step happens in state `s`. -/
def wordResponse (w : Word32) (s : State) : Option Word32 :=
  match decode w with
  | .ok i => responseOf i s
  | .error _ => none

/-- R43: the step is enabled exactly when CMD is not empty and each channel the rule pushes to has room. -/
def State.enabled (s : State) : Bool :=
  match s.fetch with
  | none => false
  | some w => (!wordPushesOut w s || s.outHasRoom) && (!wordPushesRsp w || s.rspHasRoom)

/-- The rule of each command: what its step does when it happens. -/
def ruleOf (i : Instr) (s : State) : State :=
  match i with
  | .nop => ruleNop s
  | .setw dim => ruleSetw dim s
  | .seth dim => ruleSeth dim s
  | .start => ruleStart s
  | .pix r g b => rulePix r g b s
  | .qry r g b => ruleQry r g b s
  | .palrd idx => rulePalrd idx s
  | .rdreg reg => ruleRdreg reg s
  | .clr => ruleClr s

/-- The one rule selected by the decoding of the head word `w` and by STATE (R10, R31). -/
def wordRule (w : Word32) (s : State) : State :=
  match decode w with
  | .ok i => ruleOf i s
  | .error _ => s.illegalWord w

/-- The next command of a block whose channels are unbounded, so that nothing is held (R42). -/
def unheldStep (s : State) : State :=
  match s.fetch with
  | none => s
  | some w => wordRule w s

/-- `n` such steps. -/
def unheldSteps : Nat → State → State
  | 0, s => s
  | n + 1, s => unheldSteps n (unheldStep s)

/-- All the words in CMD executed, none of them held. -/
def State.drained (s : State) : State := unheldSteps s.cmd.length s

/-- What can happen at the block: its own step (R10), the host's acts on the channels, and reset (R266). -/
inductive Event where
  /-- One step of the block. -/
  | step
  /-- The host appends a word to CMD. -/
  | append (w : Word32)
  /-- The host removes the head of OUT. -/
  | takeOut
  /-- The host removes the head of RSP. -/
  | takeRsp
  /-- Reset is applied (R261). -/
  | reset
deriving DecidableEq, Repr

/-- A block and what its host has removed from OUT and RSP so far, oldest first. -/
structure Link where
  block : State
  gotOut : List Byte
  gotRsp : List Word32
deriving DecidableEq, Repr

/-- A link to a block from which nothing has been taken yet. -/
def Link.to (s : State) : Link := ⟨s, [], []⟩

/-- One event. `none`: it cannot happen, since CMD has no room for the word or the channel is empty (R266). Reset
empties the channels, but what the host has removed is the host's (R261). -/
def Link.after (e : Event) (l : Link) : Option Link :=
  match e with
  | .step =>
    match step l.block with
    | .next t => some { l with block := t }
    | .fault _ => none
    | .refused _ => none
  | .append w =>
    if l.block.cmdHasRoom then some { l with block := { l.block with cmd := l.block.cmd ++ [w] } } else none
  | .takeOut =>
    match l.block.out with
    | [] => none
    | b :: q => some { l with block := { l.block with out := q }, gotOut := l.gotOut ++ [b] }
  | .takeRsp =>
    match l.block.rsp with
    | [] => none
    | v :: q => some { l with block := { l.block with rsp := q }, gotRsp := l.gotRsp ++ [v] }
  | .reset => some { l with block := State.reset }

/-- A schedule: a list of events in the order they happen. -/
def Link.run : List Event → Link → Option Link
  | [], l => some l
  | e :: es, l =>
    match l.after e with
    | some l' => Link.run es l'
    | none => none

/-- The words a schedule appends to CMD, in order. -/
def appendedWords : List Event → List Word32
  | [] => []
  | .append w :: es => w :: appendedWords es
  | .step :: es => appendedWords es
  | .takeOut :: es => appendedWords es
  | .takeRsp :: es => appendedWords es
  | .reset :: es => appendedWords es

/-- The block with every item it pushed since the link was made back in its channel, in push order (R41): what a host
sees that counts the items it has removed with those still queued. -/
def Link.total (l : Link) : State :=
  { l.block with out := l.gotOut ++ l.block.out, rsp := l.gotRsp ++ l.block.rsp }

end Sys2Proof.Machine
end

