-- ==== Sys2Proof/Machine/Convert.lean ====
section
/-! DEFINITION. The reference function `convert` (`41_packer.md` section 1, R160 to R164) and the words of a
conversion (R62, R170). -/

namespace Sys2Proof.Machine

/-- `ceil(W/2)`, the bytes of a row (R8, R68). -/
def rowBytes (w : Nat) : Nat := (w + 1) / 2

/-- The loop of R160 over the pairs of row `y`, from column `x`, `fuel` bounding its iterations: `x` takes the values
below `w` in steps of 2 (R162), and a missing right pixel gives the filler 0 (R163). -/
def convertPairs (grid : Nat → Nat → Rgb) (w y : Nat) : Nat → Nat → List Byte
  | 0, _ => []
  | fuel + 1, x =>
    if x < w then
      packByte (nearest (grid x y)) (if x + 1 < w then nearest (grid (x + 1) y) else 0)
        :: convertPairs grid w y fuel (x + 2)
    else []

/-- The bytes of row `y`: the loop from column 0. `w` iterations are enough for every `w`. -/
def convertRow (grid : Nat → Nat → Rgb) (w y : Nat) : List Byte := convertPairs grid w y w 0

/-- The rows from `y` on, `n` of them, in increasing order (R162). -/
def convertRows (grid : Nat → Nat → Rgb) (w : Nat) : Nat → Nat → List Byte
  | 0, _ => []
  | n + 1, y => convertRow grid w y ++ convertRows grid w n (y + 1)

/-- `convert(grid, W, H)`, R160. -/
def convert (grid : Nat → Nat → Rgb) (w h : Nat) : List Byte := convertRows grid w h 0

/-- Whether `convert` advises OddWidthWarning (R160, R161). It changes no byte. -/
def convertAdvises (w : Nat) : Bool := w % 2 == 1

/-- The pixel of beat `k` of a run of width `w`: `x = k mod W`, `y = k div W` (R62). -/
def beatPixel (grid : Nat → Nat → Rgb) (w k : Nat) : Rgb := grid (k % w) (k / w)

/-- The pixels of the first `k` beats, in order (R62). -/
def gridPixels (grid : Nat → Nat → Rgb) (w k : Nat) : List Rgb := (List.range k).map (beatPixel grid w)

/-- NOP, QRY, PALRD or RDREG: a command that may stand anywhere in a run (R177). -/
def isQuietCommand (i : Instr) : Bool :=
  match i with
  | .nop => true
  | .setw _ => false
  | .seth _ => false
  | .start => false
  | .pix _ _ _ => false
  | .qry _ _ _ => true
  | .palrd _ => true
  | .rdreg _ => true
  | .clr => false

/-- Whether a word is one of those commands. -/
def isQuiet (w : Word32) : Bool :=
  match decode w with
  | .ok i => isQuietCommand i
  | .error _ => false

/-- Whether a word is a PIX. -/
def isPix (w : Word32) : Bool := (pixelOf w).isSome

end Sys2Proof.Machine
end

