-- ==== Sys2Proof/Safety.lean ====
section
/-! DEFINITION. The terms statements use: the invariants of R36, what a fault records (R221), and what counts as a
finished conversion. -/

namespace Sys2Proof.Machine

/-- The largest byte count of a run, `65535 × 32768` (R25). -/
def maxBytes : Nat := 2147450880

/-- What FCMD holds for each cause (R221): the word that raised it. -/
def faultRecord (c : Cause) (w : Word32) : Prop :=
  match c with
  | .noFault => False
  | .illcmd => ∃ e, decode w = .error e
  | .baddim => decode w = .ok .start
  | .overrun => ∃ r g b, decode w = .ok (.pix r g b)
  | .underrun => (∃ d, decode w = .ok (.setw d)) ∨ (∃ d, decode w = .ok (.seth d)) ∨ decode w = .ok .start

/-- R36 (a), (b), (c), and FCMD 0 outside FAULT (R26): what holds in RUN. -/
def runInv (s : State) : Prop :=
  1 ≤ s.width.toNat ∧ 1 ≤ s.height.toNat ∧ s.xpos.toNat < s.width.toNat ∧ s.ypos.toNat < s.height.toNat ∧
  s.done = false ∧ s.oddw = s.oddWidth ∧ s.cause = .noFault ∧ s.fcmd = 0 ∧
  s.bytecnt.toNat = s.ypos.toNat * rowBytes s.width.toNat + s.xpos.toNat / 2 ∧
  (s.xpos.toNat % 2 = 0 → s.hold = 0)

/-- R36 (e) without its clause on BYTECNT, and the bounds R203 draws for IDLE. -/
def idleInv (s : State) : Prop :=
  s.xpos = 0 ∧ s.ypos = 0 ∧ s.hold = 0 ∧ s.cause = .noFault ∧ s.fcmd = 0 ∧
  (s.oddw = true → s.done = true) ∧ s.bytecnt.toNat ≤ maxBytes

/-- R36 (f) and R221 for FAULT, and the bounds R203 draws for the frozen registers. -/
def faultInv (s : State) : Prop :=
  faultRecord s.cause s.fcmd ∧ (s.xpos = 0 ∨ s.xpos.toNat < s.width.toNat) ∧
  (s.ypos = 0 ∨ s.ypos.toNat < s.height.toNat) ∧ s.bytecnt.toNat ≤ maxBytes

/-- The invariant of the block, by sequencer state (R36). -/
def blockInv (s : State) : Prop :=
  match s.seq with
  | .idle => idleInv s
  | .run => runInv s
  | .fault => faultInv s

/-- The clause of R36 (e) on BYTECNT: a finished run has pushed every byte of its grid. -/
def doneCount (s : State) : Prop :=
  s.seq = .idle → s.done = true → s.bytecnt.toNat = s.height.toNat * rowBytes s.width.toNat

/-- The next step accepts a SETW or SETH (R171, R172). -/
def takesSetting (s : State) : Prop :=
  s.seq = .idle ∧ ∃ d rest, s.cmd = encode (.setw d) :: rest ∨ s.cmd = encode (.seth d) :: rest

/-- No step of the schedule accepts a SETW or SETH: the proviso of R36 (e). -/
def noSettingTaken : List Event → Link → Prop
  | [], _ => True
  | e :: es, l =>
    (e = .step → ¬takesSetting l.block) ∧
    match l.after e with
    | some l' => noSettingTaken es l'
    | none => True

/-- No channel holds more than its capacity (R42). -/
def channelsFit (s : State) : Prop :=
  s.cmd.length ≤ Config.cmdDepth ∧ s.out.length ≤ Config.outDepth ∧ s.rsp.length ≤ Config.rspDepth

/-- "The run completed": DONE is 1 and the block is not in FAULT (`93_implementation_defined.md` V8, R33). -/
def State.completed (s : State) : Bool := s.done && !s.faulted

/-- A state some schedule reaches from reset. -/
def Reachable (s : State) : Prop :=
  ∃ (es : List Event) (l : Link), Link.run es (Link.to State.reset) = some l ∧ l.block = s

end Sys2Proof.Machine
end

