-- ==== Sys2Proof/Certificates/Slice0/Obligations.lean ====
section
/-! DEFINITION. The statements for the provers. Each docstring names the rule of spec/ it formalises; `s.cmd.tail` is
CMD without the word at its head, which the block has removed (R10). -/

open Sys2Proof Sys2Proof.Machine

/-! ### Encoding -/

/-- Words of `95_test_vectors.md` section 2.4, at least one of every format, decode as listed there (R92 to R99). -/
def Obligations.DecodeReadsExampleWords : Prop :=
  decode 0x00000000 = .ok .nop ∧ decode 0x10000140 = .ok (.setw 320) ∧ decode 0x200000B4 = .ok (.seth 180) ∧
  decode 0x30000000 = .ok .start ∧ decode 0x40123456 = .ok (.pix 18 52 86) ∧
  decode 0x50123456 = .ok (.qry 18 52 86) ∧ decode 0x6000000F = .ok (.palrd 15) ∧
  decode 0x70000007 = .ok (.rdreg .fcmd) ∧ decode 0x80000000 = .ok .clr ∧
  decode 0x10010000 = .error .reservedBits ∧ decode 0x70000008 = .error .reservedBits ∧
  decode 0x90000000 = .error .reservedOpcode

/-- Every command, with every operand its format admits, decodes from its own word (R92 to R98). -/
def Obligations.DecodeInvertsEncode : Prop :=
  ∀ i : Instr, decode (encode i) = .ok i

/-- A legal word is the word of the one command it decodes to (R92, R93): no two words mean the same command with the
same operands. The encoder is the model's. -/
def Obligations.EncodeInvertsDecode : Prop :=
  ∀ (w : Word32) (i : Instr), decode w = .ok i → encode i = w

/-- R93: decoding against `opcode_table.json`, and the operands the formats extract. -/
def Obligations.DecodeFollowsOpcodeTable : Prop :=
  (∀ row ∈ opcodeTable, ∀ w : Word32,
    w &&& row.mask = row.value ↔ ∃ i, decode w = .ok i ∧ i.mnemonic = row.mnemonic) ∧
  (∀ w : Word32, ∀ r₁ ∈ opcodeTable, ∀ r₂ ∈ opcodeTable,
    w &&& r₁.mask = r₁.value → w &&& r₂.mask = r₂.value → r₁ = r₂) ∧
  (∀ w : Word32, (∀ row ∈ opcodeTable, w &&& row.mask ≠ row.value) → ∃ e, decode w = .error e) ∧
  (∀ (w : Word32) (d : Dim), decode w = .ok (.setw d) ∨ decode w = .ok (.seth d) →
    d.toNat = w.toNat % 65536) ∧
  (∀ (w : Word32) (r g b : Comp), decode w = .ok (.pix r g b) ∨ decode w = .ok (.qry r g b) →
    r.toNat = w.toNat / 65536 % 256 ∧ g.toNat = w.toNat / 256 % 256 ∧ b.toNat = w.toNat % 256) ∧
  (∀ (w : Word32) (i : PalIndex), decode w = .ok (.palrd i) → i.toNat = w.toNat % 16) ∧
  (∀ (w : Word32) (n : Reg), decode w = .ok (.rdreg n) → n.num.toNat = w.toNat % 8)

/-- R99, first sentence: a word is illegal exactly when its opcode is 0x9 to 0xF or a reserved bit of its format is 1,
the reserved fields being those of R94 to R98. -/
def Obligations.IllegalExactlyByOpcodeOrReservedBit : Prop :=
  ∀ w : Word32, (∃ e, decode w = .error e) ↔
    match w.toNat / 2 ^ 28 with
    | 0 => w.toNat % 2 ^ 28 ≠ 0
    | 1 => w.toNat / 2 ^ 16 % 2 ^ 12 ≠ 0
    | 2 => w.toNat / 2 ^ 16 % 2 ^ 12 ≠ 0
    | 3 => w.toNat % 2 ^ 28 ≠ 0
    | 4 => w.toNat / 2 ^ 24 % 2 ^ 4 ≠ 0
    | 5 => w.toNat / 2 ^ 24 % 2 ^ 4 ≠ 0
    | 6 => w.toNat / 2 ^ 4 % 2 ^ 24 ≠ 0
    | 7 => w.toNat / 2 ^ 3 % 2 ^ 25 ≠ 0
    | 8 => w.toNat % 2 ^ 28 ≠ 0
    | _ => True

/-- The count of legal words in R99. -/
def Obligations.LegalWordsCounted : Prop :=
  Set.ncard {w : Word32 | ∃ i, decode w = .ok i} = 33685531

/-! ### Palette and nearest -/

/-- R130: the table, in its hexadecimal column. -/
def Obligations.PaletteEntriesAsPrinted : Prop :=
  paletteIndices.map (fun i => rgbBits (palette i)) =
    [0x000000, 0xBC0000, 0x00ED00, 0xC2D400, 0x0000E8, 0xBD00C7, 0x00DCC2, 0xDCDADD,
     0x757575, 0xDF0000, 0x00FF00, 0xF6FF03, 0x5447FB, 0xEF00FD, 0x0DFFF8, 0xFFFFFF]

/-- R132: the entries are distinct, 2 and 10 the closest two. The spec marks the rule as derived from R130. -/
def Obligations.PaletteEntriesApart : Prop :=
  (∀ i j : PalIndex, i ≠ j → palette i ≠ palette j) ∧
  distance (palette 2) 10 = 324 ∧
  (∀ i j : PalIndex, i ≠ j → ¬(i = 2 ∧ j = 10) → ¬(i = 10 ∧ j = 2) → 324 < distance (palette i) j) ∧
  (∀ i j : PalIndex, distance (palette i) i = 0 ∧ (i ≠ j → 324 ≤ distance (palette i) j))

/-- R135: the distance is the sum of the squared integer differences, each in -255..255, each square in 0..65025, the
sum in 0..195075. -/
def Obligations.DistanceInTheIntegers : Prop :=
  ∀ (p : Rgb) (i : PalIndex),
    let dr : Int := p.r.toNat - (palette i).r.toNat
    let dg : Int := p.g.toNat - (palette i).g.toNat
    let db : Int := p.b.toNat - (palette i).b.toNat
    (distance p i : Int) = dr ^ 2 + dg ^ 2 + db ^ 2 ∧
    (∀ d ∈ [dr, dg, db], -255 ≤ d ∧ d ≤ 255 ∧ 0 ≤ d ^ 2 ∧ d ^ 2 ≤ 65025) ∧
    distance p i ≤ 195075

/-- R137: a distance fits 18 bits, the largest is reached at the two corners, and neither the value of the "infinite"
distance nor the form that starts from entry 0 changes the result. The spec marks the rule as derived from R135 and as
its own decision. -/
def Obligations.InfiniteDistanceUnobservable : Prop :=
  (∀ p i, distance p i ≤ 195075 ∧ distance p i < 2 ^ 18) ∧
  distance ⟨255, 255, 255⟩ 0 = 195075 ∧ distance ⟨0, 0, 0⟩ 15 = 195075 ∧ infiniteDistance = 2 ^ 18 - 1 ∧
  (∀ (p : Rgb) (inf : Nat), 195075 < inf → scanNearest p paletteIndices inf 0 = nearest p) ∧
  (∀ p : Rgb, scanNearest p paletteIndices.tail (distance p 0) 0 = nearest p)

/-- R139: the result is the unique index at the least distance whose lower indices are all farther. The spec marks the
rule as derived from R136. -/
def Obligations.NearestIsFirstMinimum : Prop :=
  ∀ (p : Rgb) (n : PalIndex),
    nearest p = n ↔ (∀ j, distance p n ≤ distance p j) ∧ (∀ j, j.toNat < n.toNat → distance p n < distance p j)

/-- R140 (a) to (e), (d) being R138. -/
def Obligations.NearestLaws : Prop :=
  (∀ i : PalIndex, nearest (palette i) = i) ∧
  (∀ p : Rgb, (nearest p).toNat ≤ 15) ∧
  (∀ (p : Rgb) (j : PalIndex), distance p (nearest p) ≤ distance p j) ∧
  (∀ (p : Rgb) (j : PalIndex), (∀ k, distance p j ≤ distance p k) → (nearest p).toNat ≤ j.toNat) ∧
  (∃ p : Rgb, palette (nearest p) ≠ p)

/-- The fifteen example ties of R142: pair, input, tied distance; the lower index wins. The spec marks the table
as derived from R130 and R136. -/
def Obligations.TiesOfTheTable : Prop :=
  ∀ row ∈ ([(0, 1, ⟨94, 0, 0⟩, 8836), (0, 4, ⟨0, 0, 116⟩, 13456), (1, 3, ⟨191, 106, 0⟩, 11245),
      (2, 8, ⟨0, 138, 77⟩, 15730), (2, 10, ⟨0, 246, 0⟩, 81), (3, 11, ⟨197, 255, 92⟩, 10322),
      (4, 12, ⟨0, 88, 231⟩, 7745), (5, 12, ⟨89, 7, 168⟩, 11010), (5, 13, ⟨187, 0, 251⟩, 2708),
      (6, 12, ⟨2, 135, 254⟩, 10829), (6, 14, ⟨0, 189, 254⟩, 4561), (7, 8, ⟨110, 187, 208⟩, 13230),
      (7, 15, ⟨212, 245, 255⟩, 1949), (12, 13, ⟨192, 102, 249⟩, 12629),
      (12, 14, ⟨69, 171, 255⟩, 10241)] : List (PalIndex × PalIndex × Rgb × Nat)),
    nearest row.2.2.1 = row.1 ∧ distance row.2.2.1 row.1 = row.2.2.2 ∧ distance row.2.2.1 row.2.1 = row.2.2.2

/-- R164: the byte is `16 * idx1 + idx2`, with bits 7:4 the left index and bits 3:0 the right one. -/
def Obligations.ByteComposition : Prop :=
  ∀ left right : PalIndex,
    packByte left right = (left.setWidth 8 <<< 4) ||| (right.setWidth 8 &&& 0xF) ∧
    (packByte left right).toNat = 16 * left.toNat + right.toNat ∧
    (packByte left right).extractLsb' 4 4 = left ∧ (packByte left right).extractLsb' 0 4 = right

/-! ### The nine commands, each in every sequencer state -/

/-- R201: NOP. -/
def Obligations.NopCommand : Prop :=
  decode 0x00000000 = .ok .nop ∧
  (∀ w : Word32, opcodeOf w = 0 → w ≠ 0 → ∃ e, decode w = .error e) ∧
  (∀ s : State, exec .nop s = .next { s with cmd := s.cmd.tail })

/-- R171: SETW, with the START it makes fault when the width written is 0. -/
def Obligations.SetwCommand : Prop :=
  (∀ d : Dim, decode (0x1000#16 ++ d) = .ok (.setw d)) ∧
  (∀ (d : Dim) (s : State), s.seq = .idle →
    exec (.setw d) s = .next { s with cmd := s.cmd.tail, width := d }) ∧
  (∀ (d : Dim) (s : State), s.seq = .run →
    exec (.setw d) s =
      .next { s with cmd := s.cmd.tail, seq := .fault, cause := .underrun, fcmd := 0x1000#16 ++ d }) ∧
  (∀ (d : Dim) (s : State), s.seq = .fault → exec (.setw d) s = .next { s with cmd := s.cmd.tail }) ∧
  (∀ s t : State, s.seq = .idle → exec (.setw 0) s = .next t →
    exec .start t =
      .next { t with cmd := t.cmd.tail, seq := .fault, cause := .baddim, fcmd := 0x30000000 }) ∧
  decode 0x10000140 = .ok (.setw 320)

/-- R172: SETH, with the START it makes fault when the height written is 0. -/
def Obligations.SethCommand : Prop :=
  (∀ d : Dim, decode (0x2000#16 ++ d) = .ok (.seth d)) ∧
  (∀ (d : Dim) (s : State), s.seq = .idle →
    exec (.seth d) s = .next { s with cmd := s.cmd.tail, height := d }) ∧
  (∀ (d : Dim) (s : State), s.seq = .run →
    exec (.seth d) s =
      .next { s with cmd := s.cmd.tail, seq := .fault, cause := .underrun, fcmd := 0x2000#16 ++ d }) ∧
  (∀ (d : Dim) (s : State), s.seq = .fault → exec (.seth d) s = .next { s with cmd := s.cmd.tail }) ∧
  (∀ s t : State, s.seq = .idle → exec (.seth 0) s = .next t →
    exec .start t =
      .next { t with cmd := t.cmd.tail, seq := .fault, cause := .baddim, fcmd := 0x30000000 }) ∧
  decode 0x200000B4 = .ok (.seth 180)

/-- R173: START. -/
def Obligations.StartCommand : Prop :=
  decode 0x30000000 = .ok .start ∧
  (∀ s : State, s.seq = .idle → s.width ≠ 0 → s.height ≠ 0 →
    exec .start s =
      .next { s with
        cmd := s.cmd.tail, xpos := 0, ypos := 0, hold := 0, bytecnt := 0, done := false,
        oddw := s.width.getLsbD 0, seq := .run }) ∧
  (∀ s : State, s.seq = .idle → s.width = 0 ∨ s.height = 0 →
    exec .start s =
      .next { s with cmd := s.cmd.tail, seq := .fault, cause := .baddim, fcmd := 0x30000000 }) ∧
  (∀ s : State, s.seq = .run →
    exec .start s =
      .next { s with cmd := s.cmd.tail, seq := .fault, cause := .underrun, fcmd := 0x30000000 }) ∧
  (∀ s : State, s.seq = .fault → exec .start s = .next { s with cmd := s.cmd.tail }) ∧
  (∀ t : State, exec .start { State.reset with width := 3, height := 1 } = .next t →
    t.seq = .run ∧ t.oddw = true ∧ t.statusWord = 0x00000005)

/-- R175: PIX. A beat that pushes completes when OUT has room and is held when OUT is full; a beat that fills HOLD is
never held. Two clauses rest on choices of the model: that a held command answers with the same state (assumption log
2), and, in states outside the invariant of R36, that XPOS + 1, YPOS + 1 and BYTECNT + 1 wrap at the width of their
register (assumption log 5). -/
def Obligations.PixCommand : Prop :=
  (∀ r g b : Comp, decode (0x40#8 ++ r ++ g ++ b) = .ok (.pix r g b)) ∧
  (∀ (r g b : Comp) (s : State), s.seq = .idle →
    exec (.pix r g b) s =
      .next { s with cmd := s.cmd.tail, seq := .fault, cause := .overrun, fcmd := 0x40#8 ++ r ++ g ++ b }) ∧
  (∀ (r g b : Comp) (s : State), s.seq = .fault →
    exec (.pix r g b) s = .next { s with cmd := s.cmd.tail }) ∧
  (∀ (r g b : Comp) (s : State), s.seq = .run → s.xpos.toNat % 2 = 0 → s.xpos.toNat + 1 ≠ s.width.toNat →
    exec (.pix r g b) s =
      .next { s with cmd := s.cmd.tail, hold := nearest ⟨r, g, b⟩, xpos := s.xpos + 1 }) ∧
  (∀ (r g b : Comp) (s : State), s.seq = .run →
    s.xpos.toNat % 2 = 1 ∨ s.xpos.toNat + 1 = s.width.toNat → s.out.length < Config.outDepth →
    exec (.pix r g b) s =
      .next { s with
        cmd := s.cmd.tail,
        out := s.out ++ [if s.xpos.toNat % 2 = 0 then nearest ⟨r, g, b⟩ ++ 0#4 else s.hold ++ nearest ⟨r, g, b⟩],
        bytecnt := s.bytecnt + 1,
        hold := 0,
        xpos := if s.xpos.toNat + 1 = s.width.toNat then 0 else s.xpos + 1,
        ypos :=
          if s.xpos.toNat + 1 = s.width.toNat then
            if s.ypos.toNat + 1 < s.height.toNat then s.ypos + 1 else 0
          else s.ypos,
        seq :=
          if s.xpos.toNat + 1 = s.width.toNat ∧ ¬ s.ypos.toNat + 1 < s.height.toNat then .idle else .run,
        done :=
          if s.xpos.toNat + 1 = s.width.toNat ∧ ¬ s.ypos.toNat + 1 < s.height.toNat then true else s.done }) ∧
  (∀ (r g b : Comp) (s : State), s.seq = .run →
    s.xpos.toNat % 2 = 1 ∨ s.xpos.toNat + 1 = s.width.toNat → Config.outDepth ≤ s.out.length →
    exec (.pix r g b) s = .next s) ∧
  (∀ s t u : State, s.seq = .run → s.width = 2 → s.height = 1 → s.xpos = 0 → s.ypos = 0 → s.bytecnt = 0 →
    s.out = [] → exec (.pix 0 0 0) s = .next t → exec (.pix 255 255 255) t = .next u →
    t.hold = 0 ∧ t.xpos = 1 ∧ u.out = [0x0F] ∧ u.bytecnt = 1 ∧ u.xpos = 0 ∧ u.done = true ∧ u.seq = .idle)

/-- R144: QRY, in every sequencer state alike, held while RSP is full. The response form is R102. That a held command
answers with the same state is the model's choice (assumption log 2). -/
def Obligations.QryCommand : Prop :=
  (∀ r g b : Comp, decode (0x50#8 ++ r ++ g ++ b) = .ok (.qry r g b)) ∧
  (∀ (r g b : Comp) (s : State), s.rsp.length < Config.rspDepth →
    exec (.qry r g b) s =
      .next { s with cmd := s.cmd.tail, rsp := s.rsp ++ [(nearest ⟨r, g, b⟩).setWidth 32] }) ∧
  (∀ (r g b : Comp) (s : State), Config.rspDepth ≤ s.rsp.length → exec (.qry r g b) s = .next s) ∧
  (∀ i : PalIndex, nearest (palette i) = i) ∧
  decode 0x505E0000 = .ok (.qry 94 0 0) ∧ nearest ⟨94, 0, 0⟩ = 0 ∧
  decode 0x505F0000 = .ok (.qry 95 0 0) ∧ nearest ⟨95, 0, 0⟩ = 1

/-- R145: PALRD, in every sequencer state alike, held while RSP is full. The response form is R103. That a held command
answers with the same state is the model's choice (assumption log 2). -/
def Obligations.PalrdCommand : Prop :=
  (∀ i : PalIndex, decode (0x6000000#28 ++ i) = .ok (.palrd i)) ∧
  (∀ (i : PalIndex) (s : State), s.rsp.length < Config.rspDepth →
    exec (.palrd i) s =
      .next { s with
        cmd := s.cmd.tail, rsp := s.rsp ++ [0#8 ++ (palette i).r ++ (palette i).g ++ (palette i).b] }) ∧
  (∀ (i : PalIndex) (s : State), Config.rspDepth ≤ s.rsp.length → exec (.palrd i) s = .next s) ∧
  paletteIndices.map (fun i => (0#8 ++ (palette i).r ++ (palette i).g ++ (palette i).b : Word32)) =
    [0x00000000, 0x00BC0000, 0x0000ED00, 0x00C2D400, 0x000000E8, 0x00BD00C7, 0x0000DCC2, 0x00DCDADD,
     0x00757575, 0x00DF0000, 0x0000FF00, 0x00F6FF03, 0x005447FB, 0x00EF00FD, 0x000DFFF8, 0x00FFFFFF]

/-- R202: RDREG, in every sequencer state alike, held while RSP is full. STATUS is laid out in R32. That a held command
answers with the same state is the model's choice (assumption log 2). -/
def Obligations.RdregCommand : Prop :=
  (∀ n : BitVec 3, decode (0x7#4 ++ 0#25 ++ n) = .ok (.rdreg (regOfNum n)) ∧ (regOfNum n).num = n) ∧
  (∀ (reg : Reg) (s : State), s.rsp.length < Config.rspDepth →
    exec (.rdreg reg) s =
      .next { s with
        cmd := s.cmd.tail,
        rsp := s.rsp ++ [match reg with
          | .status => s.statusWord
          | .width => s.width.setWidth 32
          | .height => s.height.setWidth 32
          | .xpos => s.xpos.setWidth 32
          | .ypos => s.ypos.setWidth 32
          | .hold => s.hold.setWidth 32
          | .bytecnt => s.bytecnt
          | .fcmd => s.fcmd] }) ∧
  (∀ (reg : Reg) (s : State), Config.rspDepth ≤ s.rsp.length → exec (.rdreg reg) s = .next s) ∧
  decode 0x70000000 = .ok (.rdreg .status) ∧ State.reset.statusWord = 0x00000000 ∧
  decode 0x70000003 = .ok (.rdreg .xpos) ∧
  (∀ (r g b : Comp) (s t : State), s.seq = .run → s.width = 3 → s.xpos = 0 → exec (.pix r g b) s = .next t →
    t.readReg .xpos = 0x00000001)

/-- R204: CLR, in every sequencer state. -/
def Obligations.ClrCommand : Prop :=
  decode 0x80000000 = .ok .clr ∧
  (∀ s : State, exec .clr s =
    .next { s with
      cmd := s.cmd.tail, seq := .idle, done := false, oddw := false, cause := .noFault, fcmd := 0,
      xpos := 0, ypos := 0, hold := 0, bytecnt := 0 }) ∧
  (∀ t : State, exec .clr State.reset = .next t → t = State.reset) ∧
  (∀ s t : State, s.seq = .fault → s.statusWord = 0x00000038 → exec .clr s = .next t →
    t.statusWord = 0x00000000) ∧
  (∀ (i : Instr) (s t : State), s.seq = .fault → i ≠ .clr → exec i s = .next t → t.seq = .fault)

/-! ### STATUS and reset -/

/-- R32: the layout of STATUS, with the cause codes of R221. -/
def Obligations.StatusLayout : Prop :=
  (∀ s : State,
    (s.statusWord.getLsbD 0 = true ↔ s.seq = .run) ∧ s.statusWord.getLsbD 1 = s.done ∧
    s.statusWord.getLsbD 2 = s.oddw ∧ (s.statusWord.getLsbD 3 = true ↔ s.seq = .fault) ∧
    s.statusWord.extractLsb' 4 4 =
      (match s.cause with | .noFault => 0 | .illcmd => 1 | .baddim => 2 | .overrun => 3 | .underrun => 4) ∧
    s.statusWord.extractLsb' 8 24 = 0 ∧
    ¬(s.statusWord.getLsbD 0 = true ∧ s.statusWord.getLsbD 3 = true)) ∧
  State.reset.statusWord = 0x00000000

/-- R203: the values RDREG can return, in a state with the invariant of R36. The spec marks both rules as derived; that
reachable states have the invariant is a statement of its own. -/
def Obligations.ReadableValues : Prop :=
  ∀ s : State, blockInv s →
    (s.seq = .idle → s.statusWord ∈ ([0x00, 0x02, 0x06] : List Word32)) ∧
    (s.seq = .run → s.statusWord ∈ ([0x01, 0x05] : List Word32)) ∧
    (s.seq = .fault → ∃ code : Nat, 1 ≤ code ∧ code ≤ 4 ∧
      s.statusWord.toNat = 0x08 + 0x10 * code + 0x02 * s.done.toNat + 0x04 * s.oddw.toNat) ∧
    (s.readReg .width).toNat ≤ 65535 ∧ (s.readReg .height).toNat ≤ 65535 ∧
    ((s.readReg .xpos).toNat = 0 ∨ (s.readReg .xpos).toNat < s.width.toNat) ∧
    ((s.readReg .ypos).toNat = 0 ∨ (s.readReg .ypos).toNat < s.height.toNat) ∧
    (s.readReg .hold).toNat ≤ 15 ∧ (s.readReg .bytecnt).toNat ≤ 2147450880 ∧
    (s.seq ≠ .fault → s.readReg .fcmd = 0) ∧ (s.seq = .fault → faultRecord s.cause (s.readReg .fcmd))

/-- R260: the reset values of R20. -/
def Obligations.ResetValues : Prop :=
  State.reset.seq = .idle ∧ State.reset.done = false ∧ State.reset.oddw = false ∧
  State.reset.cause = .noFault ∧ State.reset.width = 0 ∧ State.reset.height = 0 ∧ State.reset.xpos = 0 ∧
  State.reset.ypos = 0 ∧ State.reset.hold = 0 ∧ State.reset.bytecnt = 0 ∧ State.reset.fcmd = 0 ∧
  State.reset.statusWord = 0 ∧ State.reset.cmd = [] ∧ State.reset.out = [] ∧ State.reset.rsp = [] ∧
  (∀ l l' : Link, l.after .reset = some l' → l'.block = State.reset)

/-- R261: reset may be applied in any state; it discards everything in the block, and what the host has removed stays
the host's. Nothing but that and the host's removals takes an item out of OUT or RSP. -/
def Obligations.ResetAnywhere : Prop :=
  (∀ l : Link, l.after .reset = some { l with block := State.reset }) ∧
  (∀ (e : Event) (l l' : Link), l.after e = some l' → e ≠ .reset →
    (e ≠ .takeOut → ∃ bs, l'.block.out = l.block.out ++ bs) ∧
    (e ≠ .takeRsp → ∃ vs, l'.block.rsp = l.block.rsp ++ vs))

/-- R265: after reset START faults with BADDIM while neither dimension, only WIDTH or only HEIGHT is written, and opens a
run once both are written with non-zero values, in either order; NOP and the reads work from the first step. The spec
marks the rule as derived from R260 and R173. -/
def Obligations.InitialisationNeeded : Prop :=
  (∀ rest : List Word32,
    step { State.reset with cmd := encode .start :: rest } =
      .next { State.reset with cmd := rest, seq := .fault, cause := .baddim, fcmd := 0x30000000 }) ∧
  (∀ (w : Dim) (rest : List Word32), ∃ s₁,
    step { State.reset with cmd := encode (.setw w) :: encode .start :: rest } = .next s₁ ∧
    step s₁ =
      .next { State.reset with
        cmd := rest, width := w, seq := .fault, cause := .baddim, fcmd := 0x30000000 }) ∧
  (∀ (h : Dim) (rest : List Word32), ∃ s₁,
    step { State.reset with cmd := encode (.seth h) :: encode .start :: rest } = .next s₁ ∧
    step s₁ =
      .next { State.reset with
        cmd := rest, height := h, seq := .fault, cause := .baddim, fcmd := 0x30000000 }) ∧
  (∀ (w h : Dim) (rest : List Word32), w ≠ 0 → h ≠ 0 → ∃ s₁ s₂,
    step { State.reset with cmd := encode (.setw w) :: encode (.seth h) :: encode .start :: rest } = .next s₁ ∧
    step s₁ = .next s₂ ∧
    step s₂ =
      .next { State.reset with cmd := rest, width := w, height := h, oddw := w.getLsbD 0, seq := .run }) ∧
  (∀ (w h : Dim) (rest : List Word32), w ≠ 0 → h ≠ 0 → ∃ s₁ s₂,
    step { State.reset with cmd := encode (.seth h) :: encode (.setw w) :: encode .start :: rest } = .next s₁ ∧
    step s₁ = .next s₂ ∧
    step s₂ =
      .next { State.reset with cmd := rest, width := w, height := h, oddw := w.getLsbD 0, seq := .run }) ∧
  (∀ (i : Instr) (rest : List Word32), isQuietCommand i = true →
    step { State.reset with cmd := encode i :: rest } =
      .next { State.reset with cmd := rest, rsp := (responseOf i State.reset).toList })

/-! ### The step -/

/-- R10: with CMD empty nothing happens; a legal word at the head runs the command it decodes to; an illegal word is
removed and faults, or is discarded in FAULT (R99). That a waiting block
answers with the same state is the model's choice (assumption log 2). -/
def Obligations.StepRunsTheDecodedCommand : Prop :=
  (∀ s : State, s.cmd = [] → step s = .next s) ∧
  (∀ (s : State) (w : Word32) (rest : List Word32) (i : Instr),
    s.cmd = w :: rest → decode w = .ok i → step s = exec i s) ∧
  (∀ (s : State) (w : Word32) (rest : List Word32) (e : IllegalWord),
    s.cmd = w :: rest → decode w = .error e → s.seq ≠ .fault →
    step s = .next { s with cmd := rest, seq := .fault, cause := .illcmd, fcmd := w }) ∧
  (∀ (s : State) (w : Word32) (rest : List Word32) (e : IllegalWord),
    s.cmd = w :: rest → decode w = .error e → s.seq = .fault → step s = .next { s with cmd := rest })

/-- No step stops the machine: a PQNP fault is a state (R226), and a command without room waits (R43). This is
the model's choice (assumption log 2). -/
def Obligations.EveryStepAnswersNext : Prop :=
  ∀ s : State, ∃ t, step s = .next t

/-- R43: when a step is enabled; an enabled step removes the head word and applies its rule, and a step that is not
enabled changes nothing. That such a step answers with the same state is the model's choice (assumption log 2). -/
def Obligations.StepHappensExactlyWhenEnabled : Prop :=
  (∀ s : State, s.enabled = true ↔ ∃ w rest, s.cmd = w :: rest ∧
    ((∃ r g b, decode w = .ok (.pix r g b)) → s.seq = .run →
      s.xpos.toNat % 2 = 1 ∨ s.xpos.toNat + 1 = s.width.toNat → s.out.length < Config.outDepth) ∧
    ((∃ r g b, decode w = .ok (.qry r g b)) ∨ (∃ i, decode w = .ok (.palrd i)) ∨
      (∃ n, decode w = .ok (.rdreg n)) → s.rsp.length < Config.rspDepth)) ∧
  (∀ s : State, s.enabled = true → step s = .next (unheldStep s) ∧ (unheldStep s).cmd = s.cmd.tail) ∧
  (∀ s : State, s.enabled = false → step s = .next s)

/-- R41: a step removes at most the head of CMD and appends at most one item at the tail of OUT and of RSP; the host
removes the head of OUT or of RSP and appends at the tail of CMD. -/
def Obligations.ChannelsAreQueues : Prop :=
  (∀ s t : State, step s = .next t →
    t = s ∨ ∃ w bs vs, s.cmd = w :: t.cmd ∧ t.out = s.out ++ bs ∧ t.rsp = s.rsp ++ vs ∧
      bs.length ≤ 1 ∧ vs.length ≤ 1) ∧
  (∀ (l l' : Link) (w : Word32), l.after (.append w) = some l' →
    l' = { l with block := { l.block with cmd := l.block.cmd ++ [w] } }) ∧
  (∀ l l' : Link, l.after .takeOut = some l' →
    ∃ b, l.block.out = b :: l'.block.out ∧ l'.gotOut = l.gotOut ++ [b] ∧ l'.gotRsp = l.gotRsp ∧
      l'.block = { l.block with out := l'.block.out }) ∧
  (∀ l l' : Link, l.after .takeRsp = some l' →
    ∃ v, l.block.rsp = v :: l'.block.rsp ∧ l'.gotRsp = l.gotRsp ++ [v] ∧ l'.gotOut = l.gotOut ∧
      l'.block = { l.block with rsp := l'.block.rsp })

/-- R101: a response is produced by QRY, PALRD or RDREG and by nothing else, one each. -/
def Obligations.OnlyReadsRespond : Prop :=
  ∀ s t : State, step s = .next t → t.rsp ≠ s.rsp →
    ∃ w rest v, s.cmd = w :: rest ∧ t.rsp = s.rsp ++ [v] ∧
      ((∃ r g b, decode w = .ok (.qry r g b)) ∨ (∃ i, decode w = .ok (.palrd i)) ∨
        (∃ n, decode w = .ok (.rdreg n)))

/-- R77 and R201: a step on NOP, QRY, PALRD or RDREG changes no register, no flag and no byte of OUT. -/
def Obligations.ReadsChangeNoRegister : Prop :=
  ∀ (s t : State) (w : Word32) (rest : List Word32), s.cmd = w :: rest → isQuiet w = true →
    step s = .next t → { t with cmd := s.cmd, rsp := s.rsp } = s

/-- R22 and R21: WIDTH and HEIGHT change only by SETW and SETH, only in IDLE, and only to the operand. -/
def Obligations.DimensionsChangeOnlyBySetting : Prop :=
  ∀ s t : State, step s = .next t →
    (t.width ≠ s.width → s.seq = .idle ∧ ∃ rest, s.cmd = encode (.setw t.width) :: rest) ∧
    (t.height ≠ s.height → s.seq = .idle ∧ ∃ rest, s.cmd = encode (.seth t.height) :: rest)

/-- R34, last sentence: ODDW steers nothing but the read of STATUS. Changing it before a step that is not such a read
changes nothing after the step but ODDW itself. -/
def Obligations.OddWidthFlagSteersNothing : Prop :=
  ∀ (s t : State) (o : Bool), (∀ rest, s.cmd ≠ encode (.rdreg .status) :: rest) → step s = .next t →
    ∃ t', step { s with oddw := o } = .next t' ∧ { t' with oddw := t.oddw } = t

/-- R33: DONE is set only by the PIX step that pushes the last byte of a run and leaves RUN for IDLE, when the byte
count is whole; it is cleared only by an accepted START or by CLR; a fault leaves it. -/
def Obligations.DoneFlagRule : Prop :=
  ∀ s t : State, step s = .next t →
    (s.done = false → t.done = true →
      (∃ r g b rest, s.cmd = encode (.pix r g b) :: rest) ∧ s.seq = .run ∧ t.seq = .idle ∧
      s.xpos.toNat + 1 = s.width.toNat ∧ s.height.toNat ≤ s.ypos.toNat + 1 ∧ t.out.length = s.out.length + 1 ∧
      (blockInv s → t.bytecnt.toNat = t.height.toNat * rowBytes t.width.toNat)) ∧
    (s.done = true → t.done = false →
      (∃ rest, s.cmd = encode .clr :: rest) ∨
      ((∃ rest, s.cmd = encode .start :: rest) ∧ s.seq = .idle ∧ t.seq = .run)) ∧
    (s.seq ≠ .fault → t.seq = .fault → t.done = s.done) ∧
    State.reset.done = false

/-! ### Faults -/

/-- R226: taking a fault, and how STATUS then reads. -/
def Obligations.FaultEntry : Prop :=
  ∀ (c : Cause) (w : Word32) (s : State),
    s.takeFault c w = { s with cmd := s.cmd.tail, seq := .fault, cause := c, fcmd := w } ∧
    (s.takeFault c w).statusWord.getLsbD 0 = false ∧ (s.takeFault c w).statusWord.getLsbD 3 = true

/-- R221 and R227: a step that enters FAULT is one of the four of the table, and has no effect but the fault entry. -/
def Obligations.EveryFaultIsInTheTable : Prop :=
  ∀ s t : State, step s = .next t → s.seq ≠ .fault → t.seq = .fault →
    ∃ w rest, s.cmd = w :: rest ∧
      t = { s with cmd := rest, seq := .fault, cause := t.cause, fcmd := w } ∧
      ((t.cause = .illcmd ∧ ∃ e, decode w = .error e) ∨
       (t.cause = .baddim ∧ s.seq = .idle ∧ decode w = .ok .start ∧ (s.width = 0 ∨ s.height = 0)) ∨
       (t.cause = .overrun ∧ s.seq = .idle ∧ ∃ r g b, decode w = .ok (.pix r g b)) ∨
       (t.cause = .underrun ∧ s.seq = .run ∧
         ((∃ d, decode w = .ok (.setw d)) ∨ (∃ d, decode w = .ok (.seth d)) ∨ decode w = .ok .start)))

/-- R229: the order in which the fault conditions decide. -/
def Obligations.FaultPriority : Prop :=
  (∀ (s t : State), s.seq = .fault → step s = .next t →
    (t.seq = .fault ∧ t.cause = s.cause ∧ t.fcmd = s.fcmd) ∨ ∃ rest, s.cmd = encode .clr :: rest) ∧
  (∀ (s : State) (w : Word32) (rest : List Word32) (e : IllegalWord),
    s.cmd = w :: rest → s.seq ≠ .fault → decode w = .error e →
    step s = .next { s with cmd := rest, seq := .fault, cause := .illcmd, fcmd := w }) ∧
  (∀ (s : State) (w : Word32) (rest : List Word32) (r g b : Comp),
    s.cmd = w :: rest → s.seq = .idle → decode w = .ok (.pix r g b) →
    step s = .next { s with cmd := rest, seq := .fault, cause := .overrun, fcmd := w }) ∧
  (∀ (s : State) (w : Word32) (rest : List Word32) (i : Instr),
    s.cmd = w :: rest → s.seq = .run → decode w = .ok i →
    (∃ d, i = .setw d) ∨ (∃ d, i = .seth d) ∨ i = .start →
    step s = .next { s with cmd := rest, seq := .fault, cause := .underrun, fcmd := w }) ∧
  (∀ (s : State) (w : Word32) (rest : List Word32),
    s.cmd = w :: rest → s.seq = .idle → decode w = .ok .start → s.width = 0 ∨ s.height = 0 →
    step s = .next { s with cmd := rest, seq := .fault, cause := .baddim, fcmd := w }) ∧
  (∃ e, decode 0x30000001 = .error e) ∧ (∃ e, decode 0x4F000000 = .error e)

/-- R228: in FAULT the reads, NOP and CLR execute, everything else is discarded, and CAUSE and FCMD describe the first
fault until CLR. -/
def Obligations.FaultStateDiscards : Prop :=
  ∀ (s : State) (w : Word32) (rest : List Word32), s.cmd = w :: rest → s.seq = .fault →
    (∀ i, decode w = .ok i → isQuiet w = true ∨ i = .clr → step s = exec i s ∧
      (s.rsp.length < Config.rspDepth → step s = .next (ruleOf i s))) ∧
    ((∀ i, decode w = .ok i → isQuiet w = false ∧ i ≠ .clr) → step s = .next { s with cmd := rest }) ∧
    (∀ t, step s = .next t → (∀ i, decode w = .ok i → i ≠ .clr) →
      t.seq = .fault ∧ t.cause = s.cause ∧ t.fcmd = s.fcmd)

/-- R230: CLR is the only command that leaves FAULT; it lands in IDLE with the sequencer registers cleared and the
dimensions kept. Reset also leaves FAULT. Faults do not nest. -/
def Obligations.OnlyClrLeavesFault : Prop :=
  (∀ s t : State, step s = .next t → s.seq = .fault → t.seq ≠ .fault →
    ∃ rest, s.cmd = encode .clr :: rest ∧
      t = { State.reset with width := s.width, height := s.height, cmd := rest, out := s.out, rsp := s.rsp }) ∧
  (∀ (s t : State) (rest : List Word32), s.cmd = encode .clr :: rest → step s = .next t → t.seq = .idle) ∧
  (∀ l l' : Link, l.after .reset = some l' → l'.block.seq = .idle) ∧
  (∀ s t : State, step s = .next t → s.seq = .fault → t.seq = .fault → t.cause = s.cause ∧ t.fcmd = s.fcmd)

/-! ### Invariants -/

/-- Reset has the invariant, and its channels fit. -/
def Obligations.ResetHasInvariant : Prop :=
  blockInv State.reset ∧ channelsFit State.reset

/-- Every step keeps the invariant of R36, from every state that has it. The spec marks R36 as
derived. -/
def Obligations.StepKeepsInvariant : Prop :=
  ∀ s t : State, blockInv s → step s = .next t → blockInv t

/-- R36 (a), (b), (c), (f) and the clauses of (e) that need no history: they hold in every state that any schedule of
steps, host acts and resets reaches from reset. The spec marks R36 as derived. -/
def Obligations.ReachableStatesHaveInvariant : Prop :=
  ∀ s : State, Reachable s → blockInv s ∧ channelsFit s ∧ (s.seq = .fault ↔ s.cause ≠ .noFault)

/-- R42: no event overfills a channel. -/
def Obligations.EventsKeepChannelsFitting : Prop :=
  ∀ (e : Event) (l l' : Link), channelsFit l.block → l.after e = some l' → channelsFit l'.block

/-- R36 (e), the clause on BYTECNT with its proviso: at reset, and while no SETW or SETH is accepted, a block that is in
IDLE with DONE = 1 has counted every byte of its grid. It is kept by every step and every host act, and so along every
schedule; it holds of itself while DONE is 0. The spec marks R36 as derived. -/
def Obligations.DoneCountKept : Prop :=
  doneCount State.reset ∧ (∀ s : State, s.done = false → doneCount s) ∧
  (∀ s t : State, blockInv s → doneCount s → ¬takesSetting s → step s = .next t → doneCount t) ∧
  (∀ (es : List Event) (l l' : Link), blockInv l.block → doneCount l.block → noSettingTaken es l →
    Link.run es l = some l' → doneCount l'.block)

/-! ### Conversions -/

/-- R160, R165, R168: the length of `convert`, and byte `n` by the at most two pixels it depends on. The spec
marks R168 as derived from R160. At a zero
dimension, which R160 leaves out, it speaks of the model's choice (assumption log 14). -/
def Obligations.ConvertBytes : Prop :=
  ∀ (grid : Nat → Nat → Rgb) (w h : Nat),
    (convert grid w h).length = h * ((w + 1) / 2) ∧
    ∀ n, n < h * ((w + 1) / 2) →
      let c := (w + 1) / 2
      let x := 2 * (n % c)
      let y := n / c
      (convert grid w h)[n]? =
        some (packByte (nearest (grid x y)) (if x + 1 < w then nearest (grid (x + 1) y) else 0))

/-- R169: the document's three concrete conversions. -/
def Obligations.ConvertExamples : Prop :=
  (∀ grid : Nat → Nat → Rgb, convert grid 3 1 =
    [(nearest (grid 0 0)).setWidth 8 <<< 4 ||| (nearest (grid 1 0)).setWidth 8,
     (nearest (grid 2 0)).setWidth 8 <<< 4 ||| 0]) ∧
  (∀ grid : Nat → Nat → Rgb, grid 0 0 = ⟨0, 0, 0⟩ → grid 1 0 = ⟨255, 255, 255⟩ → convert grid 2 1 = [0x0F]) ∧
  (∀ grid : Nat → Nat → Rgb, (∀ x y, grid x y = ⟨0, 0, 0⟩) → convert grid 2 2 = [0x00, 0x00])

/-- R272: a schedule that ends with CMD empty gives the registers, the bytes and the responses of the block with
unbounded channels that is handed the same words at once, whatever the capacities and the schedule. The spec marks the
rule as derived from R43. -/
def Obligations.SchedulesAgree : Prop :=
  ∀ (s : State) (es : List Event) (l : Link), Link.run es (Link.to s) = some l → .reset ∉ es →
    l.block.cmd = [] → l.total = { s with cmd := s.cmd ++ appendedWords es }.drained

/-- R177: NOP, QRY, PALRD and RDREG anywhere among the commands change neither the bytes pushed nor any register. The spec marks
the rule as derived from R144, R145, R201 and R202. -/
def Obligations.QuietCommandsInterleave : Prop :=
  ∀ (s : State) (ws : List Word32),
    { ({ s with cmd := ws }).drained with rsp := s.rsp } =
      { ({ s with cmd := ws.filter (fun w => !isQuiet w) }).drained with rsp := s.rsp }

/-- R178: the commands of a conversion, on any schedule, push exactly `convert(grid, W, H)` and leave the block as the
rule says. FAULT is left only by CLR and reset, and the words hold neither, so ending in IDLE says no fault was
raised. The spec marks the rule as derived. -/
def Obligations.CommandsComputeConvert : Prop :=
  ∀ (grid : Nat → Nat → Rgb) (s : State) (es : List Event) (l : Link) (ws : List Word32),
    s.seq = .idle → s.width ≠ 0 → s.height ≠ 0 → s.cmd = [] →
    appendedWords es = encode .start :: ws → (∀ w ∈ ws, isPix w = true ∨ isQuiet w = true) →
    ws.filterMap pixelOf = gridPixels grid s.width.toNat (s.width.toNat * s.height.toNat) →
    .reset ∉ es → Link.run es (Link.to s) = some l → l.block.cmd = [] →
    l.gotOut ++ l.block.out = s.out ++ convert grid s.width.toNat s.height.toNat ∧
    l.block.seq = .idle ∧ l.block.done = true ∧ l.block.oddw = convertAdvises s.width.toNat ∧
    l.block.bytecnt.toNat = s.height.toNat * ((s.width.toNat + 1) / 2) ∧
    l.block.xpos = 0 ∧ l.block.ypos = 0 ∧ l.block.hold = 0 ∧
    l.block.width = s.width ∧ l.block.height = s.height

/-- R179, and R36 (d) with it: after `k` beats, the bytes pushed are that prefix of `convert(grid, W, H)`; while beats
are missing the block waits in RUN at the next pixel's position, with the left index of an open pair in HOLD. The spec
marks both rules as derived. -/
def Obligations.PrefixOfConversion : Prop :=
  ∀ (grid : Nat → Nat → Rgb) (s : State) (es : List Event) (l : Link) (ws : List Word32) (k : Nat),
    s.seq = .idle → s.width ≠ 0 → s.height ≠ 0 → s.cmd = [] → k ≤ s.width.toNat * s.height.toNat →
    appendedWords es = encode .start :: ws → (∀ w ∈ ws, isPix w = true ∨ isQuiet w = true) →
    ws.filterMap pixelOf = gridPixels grid s.width.toNat k →
    .reset ∉ es → Link.run es (Link.to s) = some l → l.block.cmd = [] →
    l.gotOut ++ l.block.out = s.out ++ (convert grid s.width.toNat s.height.toNat).take
      (k / s.width.toNat * ((s.width.toNat + 1) / 2) + k % s.width.toNat / 2) ∧
    (k < s.width.toNat * s.height.toNat →
      l.block.seq = .run ∧ l.block.done = false ∧
      l.block.xpos.toNat = k % s.width.toNat ∧ l.block.ypos.toNat = k / s.width.toNat ∧
      (l.block.xpos.toNat % 2 = 1 → l.block.hold = nearest (beatPixel grid s.width.toNat (k - 1))))

/-- R180 and R37: from IDLE with the same dimensions, the same words from a START on push the same bytes, whatever
else the two blocks hold. The spec marks both rules as derived. -/
def Obligations.RunsRepeat : Prop :=
  ∀ (s₁ s₂ : State) (ws : List Word32), s₁.seq = .idle → s₂.seq = .idle → s₁.width = s₂.width →
    s₁.height = s₂.height → s₁.cmd = encode .start :: ws → s₂.cmd = encode .start :: ws →
    ∃ bs, s₁.drained.out = s₁.out ++ bs ∧ s₂.drained.out = s₂.out ++ bs

/-- R81: one response for each response-producing command, and the j-th for the j-th. The word pushed for `w` is the
response of `w` (R102 to R104) in the state after the words before it, and stands after one word for each
response-producing command before `w` and before one for each after `w`; so too for what a host with any schedule has
removed from RSP, with what is still in it. -/
def Obligations.ResponsesMatchRequests : Prop :=
  (∀ s : State, ∃ vs : List Word32, s.drained.rsp = s.rsp ++ vs ∧
    vs.length = (s.cmd.filter wordPushesRsp).length) ∧
  (∀ (w : Word32) (s : State), (wordResponse w s).isSome = wordPushesRsp w) ∧
  (∀ (s : State) (ws₁ ws₂ : List Word32) (w : Word32), s.cmd = ws₁ ++ w :: ws₂ →
    ∃ vs₁ vs₂ : List Word32,
      s.drained.rsp = s.rsp ++ vs₁ ++ (wordResponse w { s with cmd := ws₁ }.drained).toList ++ vs₂ ∧
      vs₁.length = (ws₁.filter wordPushesRsp).length ∧ vs₂.length = (ws₂.filter wordPushesRsp).length) ∧
  (∀ (s : State) (es : List Event) (l : Link) (ws₁ ws₂ : List Word32) (w : Word32), s.cmd = [] →
    Link.run es (Link.to s) = some l → .reset ∉ es → l.block.cmd = [] → appendedWords es = ws₁ ++ w :: ws₂ →
    ∃ vs₁ vs₂ : List Word32,
      l.gotRsp ++ l.block.rsp =
        s.rsp ++ vs₁ ++ (wordResponse w { s with cmd := ws₁ }.drained).toList ++ vs₂ ∧
      vs₁.length = (ws₁.filter wordPushesRsp).length ∧ vs₂.length = (ws₂.filter wordPushesRsp).length)

/-! ### Assembler -/

/-- R105: the word of every line with its operands in range, and no word for an operand out of its range. -/
def Obligations.AssemblerWords : Prop :=
  assemble .nop = some [0x00000000] ∧ assemble .start = some [0x30000000] ∧ assemble .clr = some [0x80000000] ∧
  (∀ d, (d ≤ 65535 → assemble (.setw d) = some [BitVec.ofNat 32 (0x10000000 + d)] ∧
      assemble (.seth d) = some [BitVec.ofNat 32 (0x20000000 + d)]) ∧
    (65535 < d → assemble (.setw d) = none ∧ assemble (.seth d) = none)) ∧
  (∀ r g b, (r ≤ 255 → g ≤ 255 → b ≤ 255 →
      assemble (.pix r g b) = some [BitVec.ofNat 32 (0x40000000 + r * 2 ^ 16 + g * 2 ^ 8 + b)] ∧
      assemble (.qry r g b) = some [BitVec.ofNat 32 (0x50000000 + r * 2 ^ 16 + g * 2 ^ 8 + b)]) ∧
    (255 < r ∨ 255 < g ∨ 255 < b → assemble (.pix r g b) = none ∧ assemble (.qry r g b) = none)) ∧
  (∀ i, (i ≤ 15 → assemble (.palrd i) = some [BitVec.ofNat 32 (0x60000000 + i)]) ∧
    (15 < i → assemble (.palrd i) = none)) ∧
  (∀ n, (n ≤ 7 → assemble (.rdreg n) = some [BitVec.ofNat 32 (0x70000000 + n)]) ∧
    (7 < n → assemble (.rdreg n) = none)) ∧
  (∀ v, (v < 2 ^ 32 → assemble (.word v) = some [BitVec.ofNat 32 v]) ∧ (2 ^ 32 ≤ v → assemble (.word v) = none))

/-- R106: the expansions of the pseudo-instructions. -/
def Obligations.PseudoInstructionsExpand : Prop :=
  (∀ w h, w ≤ 65535 → h ≤ 65535 →
    assemble (.convert w h) =
      some [BitVec.ofNat 32 (0x10000000 + w), BitVec.ofNat 32 (0x20000000 + h), 0x30000000]) ∧
  assemble .abort = some [0x80000000] ∧ assemble .sync = some [0x70000000] ∧
  (∀ v, v < 2 ^ 24 → assemble (.pixhex v) = some [BitVec.ofNat 32 (0x40000000 + v)])
end

