-- ==== Sys2Proof/Laws/State.lean ====
section
/-! SUPPORT. For every update of the state, what each field holds after it: one lemma per field per update, by `rfl`,
so that no proof unfolds a record update. `discard` and `respond` reduce to these by their own lemmas. -/

namespace Sys2Proof.Machine

@[simp] theorem State.popCmd_seq (s : State) : s.popCmd.seq = s.seq := rfl
@[simp] theorem State.popCmd_done (s : State) : s.popCmd.done = s.done := rfl
@[simp] theorem State.popCmd_oddw (s : State) : s.popCmd.oddw = s.oddw := rfl
@[simp] theorem State.popCmd_cause (s : State) : s.popCmd.cause = s.cause := rfl
@[simp] theorem State.popCmd_width (s : State) : s.popCmd.width = s.width := rfl
@[simp] theorem State.popCmd_height (s : State) : s.popCmd.height = s.height := rfl
@[simp] theorem State.popCmd_xpos (s : State) : s.popCmd.xpos = s.xpos := rfl
@[simp] theorem State.popCmd_ypos (s : State) : s.popCmd.ypos = s.ypos := rfl
@[simp] theorem State.popCmd_hold (s : State) : s.popCmd.hold = s.hold := rfl
@[simp] theorem State.popCmd_bytecnt (s : State) : s.popCmd.bytecnt = s.bytecnt := rfl
@[simp] theorem State.popCmd_fcmd (s : State) : s.popCmd.fcmd = s.fcmd := rfl
@[simp] theorem State.popCmd_cmd (s : State) : s.popCmd.cmd = s.cmd.tail := rfl
@[simp] theorem State.popCmd_out (s : State) : s.popCmd.out = s.out := rfl
@[simp] theorem State.popCmd_rsp (s : State) : s.popCmd.rsp = s.rsp := rfl
@[simp] theorem State.pushOut_seq (b : Byte) (s : State) : (s.pushOut b).seq = s.seq := rfl
@[simp] theorem State.pushOut_done (b : Byte) (s : State) : (s.pushOut b).done = s.done := rfl
@[simp] theorem State.pushOut_oddw (b : Byte) (s : State) : (s.pushOut b).oddw = s.oddw := rfl
@[simp] theorem State.pushOut_cause (b : Byte) (s : State) : (s.pushOut b).cause = s.cause := rfl
@[simp] theorem State.pushOut_width (b : Byte) (s : State) : (s.pushOut b).width = s.width := rfl
@[simp] theorem State.pushOut_height (b : Byte) (s : State) : (s.pushOut b).height = s.height := rfl
@[simp] theorem State.pushOut_xpos (b : Byte) (s : State) : (s.pushOut b).xpos = s.xpos := rfl
@[simp] theorem State.pushOut_ypos (b : Byte) (s : State) : (s.pushOut b).ypos = s.ypos := rfl
@[simp] theorem State.pushOut_hold (b : Byte) (s : State) : (s.pushOut b).hold = s.hold := rfl
@[simp] theorem State.pushOut_bytecnt (b : Byte) (s : State) : (s.pushOut b).bytecnt = s.bytecnt := rfl
@[simp] theorem State.pushOut_fcmd (b : Byte) (s : State) : (s.pushOut b).fcmd = s.fcmd := rfl
@[simp] theorem State.pushOut_cmd (b : Byte) (s : State) : (s.pushOut b).cmd = s.cmd := rfl
@[simp] theorem State.pushOut_out (b : Byte) (s : State) : (s.pushOut b).out = s.out ++ [b] := rfl
@[simp] theorem State.pushOut_rsp (b : Byte) (s : State) : (s.pushOut b).rsp = s.rsp := rfl
@[simp] theorem State.pushRsp_seq (v : Word32) (s : State) : (s.pushRsp v).seq = s.seq := rfl
@[simp] theorem State.pushRsp_done (v : Word32) (s : State) : (s.pushRsp v).done = s.done := rfl
@[simp] theorem State.pushRsp_oddw (v : Word32) (s : State) : (s.pushRsp v).oddw = s.oddw := rfl
@[simp] theorem State.pushRsp_cause (v : Word32) (s : State) : (s.pushRsp v).cause = s.cause := rfl
@[simp] theorem State.pushRsp_width (v : Word32) (s : State) : (s.pushRsp v).width = s.width := rfl
@[simp] theorem State.pushRsp_height (v : Word32) (s : State) : (s.pushRsp v).height = s.height := rfl
@[simp] theorem State.pushRsp_xpos (v : Word32) (s : State) : (s.pushRsp v).xpos = s.xpos := rfl
@[simp] theorem State.pushRsp_ypos (v : Word32) (s : State) : (s.pushRsp v).ypos = s.ypos := rfl
@[simp] theorem State.pushRsp_hold (v : Word32) (s : State) : (s.pushRsp v).hold = s.hold := rfl
@[simp] theorem State.pushRsp_bytecnt (v : Word32) (s : State) : (s.pushRsp v).bytecnt = s.bytecnt := rfl
@[simp] theorem State.pushRsp_fcmd (v : Word32) (s : State) : (s.pushRsp v).fcmd = s.fcmd := rfl
@[simp] theorem State.pushRsp_cmd (v : Word32) (s : State) : (s.pushRsp v).cmd = s.cmd := rfl
@[simp] theorem State.pushRsp_out (v : Word32) (s : State) : (s.pushRsp v).out = s.out := rfl
@[simp] theorem State.pushRsp_rsp (v : Word32) (s : State) : (s.pushRsp v).rsp = s.rsp ++ [v] := rfl
@[simp] theorem State.takeFault_seq (c : Cause) (w : Word32) (s : State) : (s.takeFault c w).seq = .fault := rfl
@[simp] theorem State.takeFault_done (c : Cause) (w : Word32) (s : State) : (s.takeFault c w).done = s.done := rfl
@[simp] theorem State.takeFault_oddw (c : Cause) (w : Word32) (s : State) : (s.takeFault c w).oddw = s.oddw := rfl
@[simp] theorem State.takeFault_cause (c : Cause) (w : Word32) (s : State) : (s.takeFault c w).cause = c := rfl
@[simp] theorem State.takeFault_width (c : Cause) (w : Word32) (s : State) : (s.takeFault c w).width = s.width := rfl
@[simp] theorem State.takeFault_height (c : Cause) (w : Word32) (s : State) : (s.takeFault c w).height = s.height := rfl
@[simp] theorem State.takeFault_xpos (c : Cause) (w : Word32) (s : State) : (s.takeFault c w).xpos = s.xpos := rfl
@[simp] theorem State.takeFault_ypos (c : Cause) (w : Word32) (s : State) : (s.takeFault c w).ypos = s.ypos := rfl
@[simp] theorem State.takeFault_hold (c : Cause) (w : Word32) (s : State) : (s.takeFault c w).hold = s.hold := rfl
@[simp] theorem State.takeFault_bytecnt (c : Cause) (w : Word32) (s : State) : (s.takeFault c w).bytecnt = s.bytecnt := rfl
@[simp] theorem State.takeFault_fcmd (c : Cause) (w : Word32) (s : State) : (s.takeFault c w).fcmd = w := rfl
@[simp] theorem State.takeFault_cmd (c : Cause) (w : Word32) (s : State) : (s.takeFault c w).cmd = s.cmd.tail := rfl
@[simp] theorem State.takeFault_out (c : Cause) (w : Word32) (s : State) : (s.takeFault c w).out = s.out := rfl
@[simp] theorem State.takeFault_rsp (c : Cause) (w : Word32) (s : State) : (s.takeFault c w).rsp = s.rsp := rfl
@[simp] theorem State.clearSequencer_seq (s : State) : s.clearSequencer.seq = .idle := rfl
@[simp] theorem State.clearSequencer_done (s : State) : s.clearSequencer.done = false := rfl
@[simp] theorem State.clearSequencer_oddw (s : State) : s.clearSequencer.oddw = false := rfl
@[simp] theorem State.clearSequencer_cause (s : State) : s.clearSequencer.cause = .noFault := rfl
@[simp] theorem State.clearSequencer_width (s : State) : s.clearSequencer.width = s.width := rfl
@[simp] theorem State.clearSequencer_height (s : State) : s.clearSequencer.height = s.height := rfl
@[simp] theorem State.clearSequencer_xpos (s : State) : s.clearSequencer.xpos = 0 := rfl
@[simp] theorem State.clearSequencer_ypos (s : State) : s.clearSequencer.ypos = 0 := rfl
@[simp] theorem State.clearSequencer_hold (s : State) : s.clearSequencer.hold = 0 := rfl
@[simp] theorem State.clearSequencer_bytecnt (s : State) : s.clearSequencer.bytecnt = 0 := rfl
@[simp] theorem State.clearSequencer_fcmd (s : State) : s.clearSequencer.fcmd = 0 := rfl
@[simp] theorem State.clearSequencer_cmd (s : State) : s.clearSequencer.cmd = s.cmd := rfl
@[simp] theorem State.clearSequencer_out (s : State) : s.clearSequencer.out = s.out := rfl
@[simp] theorem State.clearSequencer_rsp (s : State) : s.clearSequencer.rsp = s.rsp := rfl
@[simp] theorem State.openRun_seq (s : State) : s.openRun.seq = .run := rfl
@[simp] theorem State.openRun_done (s : State) : s.openRun.done = false := rfl
@[simp] theorem State.openRun_oddw (s : State) : s.openRun.oddw = s.oddWidth := rfl
@[simp] theorem State.openRun_cause (s : State) : s.openRun.cause = s.cause := rfl
@[simp] theorem State.openRun_width (s : State) : s.openRun.width = s.width := rfl
@[simp] theorem State.openRun_height (s : State) : s.openRun.height = s.height := rfl
@[simp] theorem State.openRun_xpos (s : State) : s.openRun.xpos = 0 := rfl
@[simp] theorem State.openRun_ypos (s : State) : s.openRun.ypos = 0 := rfl
@[simp] theorem State.openRun_hold (s : State) : s.openRun.hold = 0 := rfl
@[simp] theorem State.openRun_bytecnt (s : State) : s.openRun.bytecnt = 0 := rfl
@[simp] theorem State.openRun_fcmd (s : State) : s.openRun.fcmd = s.fcmd := rfl
@[simp] theorem State.openRun_cmd (s : State) : s.openRun.cmd = s.cmd := rfl
@[simp] theorem State.openRun_out (s : State) : s.openRun.out = s.out := rfl
@[simp] theorem State.openRun_rsp (s : State) : s.openRun.rsp = s.rsp := rfl
@[simp] theorem State.holdLeft_seq (i : PalIndex) (s : State) : (s.holdLeft i).seq = s.seq := rfl
@[simp] theorem State.holdLeft_done (i : PalIndex) (s : State) : (s.holdLeft i).done = s.done := rfl
@[simp] theorem State.holdLeft_oddw (i : PalIndex) (s : State) : (s.holdLeft i).oddw = s.oddw := rfl
@[simp] theorem State.holdLeft_cause (i : PalIndex) (s : State) : (s.holdLeft i).cause = s.cause := rfl
@[simp] theorem State.holdLeft_width (i : PalIndex) (s : State) : (s.holdLeft i).width = s.width := rfl
@[simp] theorem State.holdLeft_height (i : PalIndex) (s : State) : (s.holdLeft i).height = s.height := rfl
@[simp] theorem State.holdLeft_xpos (i : PalIndex) (s : State) : (s.holdLeft i).xpos = s.xpos + 1 := rfl
@[simp] theorem State.holdLeft_ypos (i : PalIndex) (s : State) : (s.holdLeft i).ypos = s.ypos := rfl
@[simp] theorem State.holdLeft_hold (i : PalIndex) (s : State) : (s.holdLeft i).hold = i := rfl
@[simp] theorem State.holdLeft_bytecnt (i : PalIndex) (s : State) : (s.holdLeft i).bytecnt = s.bytecnt := rfl
@[simp] theorem State.holdLeft_fcmd (i : PalIndex) (s : State) : (s.holdLeft i).fcmd = s.fcmd := rfl
@[simp] theorem State.holdLeft_cmd (i : PalIndex) (s : State) : (s.holdLeft i).cmd = s.cmd := rfl
@[simp] theorem State.holdLeft_out (i : PalIndex) (s : State) : (s.holdLeft i).out = s.out := rfl
@[simp] theorem State.holdLeft_rsp (i : PalIndex) (s : State) : (s.holdLeft i).rsp = s.rsp := rfl

@[simp] theorem State.discard_eq (s : State) : s.discard = s.popCmd := rfl
@[simp] theorem State.respond_eq (v : Word32) (s : State) : s.respond v = s.popCmd.pushRsp v := rfl

@[simp] theorem State.popCmd_lastColumn (s : State) : s.popCmd.lastColumn = s.lastColumn := rfl
@[simp] theorem State.popCmd_lastRow (s : State) : s.popCmd.lastRow = s.lastRow := rfl
@[simp] theorem State.popCmd_rightPixel (s : State) : s.popCmd.rightPixel = s.rightPixel := rfl
@[simp] theorem State.popCmd_beatPushes (s : State) : s.popCmd.beatPushes = s.beatPushes := rfl
@[simp] theorem State.popCmd_oddWidth (s : State) : s.popCmd.oddWidth = s.oddWidth := rfl
@[simp] theorem State.popCmd_badDimension (s : State) : s.popCmd.badDimension = s.badDimension := rfl

end Sys2Proof.Machine
end

