-- ==== Sys2Proof/Laws/Channels.lean ====
section
/-! SUPPORT. The channels: what `hasRoom` says, what `whenRoom` can answer, and what the other shared operations can
do. Provers cite these instead of unfolding. -/

namespace Sys2Proof.Machine

/-- A queue has room exactly when it holds fewer items than its capacity (R43). -/
theorem hasRoom_iff {α : Type} (q : List α) (spare : Nat) : hasRoom q spare = true ↔ q.length < spare + 1 := by
  induction q generalizing spare with
  | nil => simp [hasRoom]
  | cons a q ih => cases spare <;> simp [hasRoom, ih]

theorem State.cmdHasRoom_iff (s : State) : s.cmdHasRoom = true ↔ s.cmd.length < Config.cmdDepth := hasRoom_iff _ _

theorem State.outHasRoom_iff (s : State) : s.outHasRoom = true ↔ s.out.length < Config.outDepth := hasRoom_iff _ _

theorem State.rspHasRoom_iff (s : State) : s.rspHasRoom = true ↔ s.rsp.length < Config.rspDepth := hasRoom_iff _ _

/-- All that `whenRoom` can answer: the new state with room, the old one without. -/
theorem whenRoom_cases {room : Bool} {t s u : State} (h : whenRoom room t s = .next u) :
    (room = true ∧ u = t) ∨ (room = false ∧ u = s) := by
  cases room <;> simp_all [whenRoom]

/-- All that an illegal word can do (R99, R228). -/
theorem State.illegalWord_cases (w : Word32) (s : State) :
    (s.seq = .fault ∧ s.illegalWord w = s.popCmd) ∨
    (s.seq ≠ .fault ∧ s.illegalWord w = s.takeFault .illcmd w) := by
  unfold State.illegalWord; cases s.seq <;> simp

/-- A beat that fills HOLD (R175). -/
theorem State.beat_hold (i : PalIndex) {s : State} (h : s.beatPushes = false) :
    s.beat i = { s with hold := i, xpos := s.xpos + 1 } := by
  simp [State.beat, h, State.holdLeft]

/-- A beat that pushes before the last column (R175). -/
theorem State.beat_nextColumn (i : PalIndex) {s : State} (h : s.beatPushes = true) (hc : s.lastColumn = false) :
    s.beat i = { s with
      out := s.out ++ [s.beatByte i], bytecnt := s.bytecnt + 1, hold := 0, xpos := s.xpos + 1 } := by
  have hc' : { (s.pushOut (s.beatByte i)) with bytecnt := s.bytecnt + 1, hold := 0 }.lastColumn = false := hc
  simp only [State.beat, h, State.advance, hc', if_true]; rfl

/-- A beat in the last column of a row that is not the last (R175). -/
theorem State.beat_nextRow (i : PalIndex) {s : State} (hc : s.lastColumn = true) (hr : s.lastRow = false) :
    s.beat i = { s with
      out := s.out ++ [s.beatByte i], bytecnt := s.bytecnt + 1, hold := 0, xpos := 0, ypos := s.ypos + 1 } := by
  have h : s.beatPushes = true := by simp [State.beatPushes, hc]
  have hc' : { (s.pushOut (s.beatByte i)) with bytecnt := s.bytecnt + 1, hold := 0 }.lastColumn = true := hc
  have hr' : { (s.pushOut (s.beatByte i)) with bytecnt := s.bytecnt + 1, hold := 0 }.lastRow = false := hr
  simp only [State.beat, h, State.advance, hc', hr', if_true]; rfl

/-- The beat that ends the run (R175, R33). -/
theorem State.beat_endOfRun (i : PalIndex) {s : State} (hc : s.lastColumn = true) (hr : s.lastRow = true) :
    s.beat i = { s with
      out := s.out ++ [s.beatByte i], bytecnt := s.bytecnt + 1, hold := 0, xpos := 0, ypos := 0,
      seq := .idle, done := true } := by
  have h : s.beatPushes = true := by simp [State.beatPushes, hc]
  have hc' : { (s.pushOut (s.beatByte i)) with bytecnt := s.bytecnt + 1, hold := 0 }.lastColumn = true := hc
  have hr' : { (s.pushOut (s.beatByte i)) with bytecnt := s.bytecnt + 1, hold := 0 }.lastRow = true := hr
  simp only [State.beat, h, State.advance, hc', hr', if_true]; rfl

/-- All that one beat can do (R175): one of the four lemmas above applies. -/
theorem State.beat_kind (s : State) :
    s.beatPushes = false ∨ (s.beatPushes = true ∧ s.lastColumn = false) ∨
    (s.lastColumn = true ∧ s.lastRow = false) ∨ (s.lastColumn = true ∧ s.lastRow = true) := by
  cases s.beatPushes <;> cases s.lastColumn <;> cases s.lastRow <;> simp

theorem State.lastColumn_iff (s : State) : s.lastColumn = true ↔ s.xpos.toNat + 1 = s.width.toNat := by
  simp [State.lastColumn]

theorem State.lastRow_iff (s : State) : s.lastRow = true ↔ s.height.toNat ≤ s.ypos.toNat + 1 := by
  simp [State.lastRow]

theorem State.rightPixel_iff (s : State) : s.rightPixel = true ↔ s.xpos.toNat % 2 = 1 := by
  simp [State.rightPixel, BitVec.getLsbD, Nat.testBit_zero]

theorem State.beatPushes_iff (s : State) :
    s.beatPushes = true ↔ s.xpos.toNat % 2 = 1 ∨ s.xpos.toNat + 1 = s.width.toNat := by
  simp [State.beatPushes, State.rightPixel_iff, State.lastColumn_iff]

end Sys2Proof.Machine
end

