-- ==== Sys2Proof/Laws/Decode.lean ====
section
/-! SUPPORT. The small lemmas of the decoder and the encoder. -/

namespace Sys2Proof

@[simp] theorem regOfNum_num (r : Reg) : regOfNum r.num = r := by cases r <;> rfl

@[simp] theorem num_regOfNum : ∀ n : BitVec 3, (regOfNum n).num = n := by decide

/-- Every decoded command has its operands in the ranges of R95, R97 and R98: the types carry them. -/
theorem Instr.wellFormed_all (i : Instr) : i.wellFormed = true := by
  cases i with
  | nop | start | clr | rdreg => rfl
  | setw d | seth d => have := d.isLt; simp [Instr.wellFormed]; omega
  | palrd i => have := i.isLt; simp [Instr.wellFormed]; omega
  | pix r g b | qry r g b =>
    have := r.isLt; have := g.isLt; have := b.isLt; simp [Instr.wellFormed]; omega

/-- What `unlessReserved` can answer: the command, and then the reserved field is zero. -/
theorem unlessReserved_ok_iff {n : Nat} (v : BitVec n) (i j : Instr) :
    unlessReserved v i = .ok j ↔ v = 0 ∧ i = j := by
  unfold unlessReserved; split <;> simp_all

/-- When `unlessReserved` refuses: exactly when a reserved bit is set. -/
theorem unlessReserved_error_iff {n : Nat} (v : BitVec n) (i : Instr) :
    (∃ e, unlessReserved v i = .error e) ↔ v ≠ 0 := by
  unfold unlessReserved; split <;> simp_all

theorem opcodeOf_toNat (w : Word32) : (opcodeOf w).toNat = w.toNat / 2 ^ 28 := by
  have := w.isLt
  simp [opcodeOf, BitVec.extractLsb'_toNat, Nat.shiftRight_eq_div_pow]; omega

/-- A concatenation as a number (R8). -/
theorem append_toNat {m n : Nat} (hi : BitVec m) (lo : BitVec n) :
    (hi ++ lo).toNat = hi.toNat * 2 ^ n + lo.toNat := by
  rw [BitVec.toNat_append, ← Nat.shiftLeft_add_eq_or_of_lt lo.isLt, Nat.shiftLeft_eq]

theorem rgbBits_toNat (p : Rgb) : (rgbBits p).toNat = p.r.toNat * 65536 + p.g.toNat * 256 + p.b.toNat := by
  refine (append_toNat (p.r ++ p.g) p.b).trans ?_
  rw [append_toNat p.r p.g]; omega

/-! The word of each command with operands, as a number. -/

theorem encode_setw_toNat (d : Dim) : (encode (.setw d)).toNat = 0x10000000 + d.toNat :=
  append_toNat 0x1000#16 d

theorem encode_seth_toNat (d : Dim) : (encode (.seth d)).toNat = 0x20000000 + d.toNat :=
  append_toNat 0x2000#16 d

theorem encode_pix_toNat (r g b : Comp) :
    (encode (.pix r g b)).toNat = 0x40000000 + r.toNat * 65536 + g.toNat * 256 + b.toNat := by
  have h := append_toNat 0x40#8 (rgbBits ⟨r, g, b⟩)
  rw [rgbBits_toNat] at h
  exact h.trans (by simp; omega)

theorem encode_qry_toNat (r g b : Comp) :
    (encode (.qry r g b)).toNat = 0x50000000 + r.toNat * 65536 + g.toNat * 256 + b.toNat := by
  have h := append_toNat 0x50#8 (rgbBits ⟨r, g, b⟩)
  rw [rgbBits_toNat] at h
  exact h.trans (by simp; omega)

theorem encode_palrd_toNat (i : PalIndex) : (encode (.palrd i)).toNat = 0x60000000 + i.toNat :=
  append_toNat 0x6000000#28 i

theorem encode_rdreg_toNat (n : Reg) : (encode (.rdreg n)).toNat = 0x70000000 + n.num.toNat :=
  append_toNat (0x7#4 ++ 0#25) n.num

/-- A field `w[lo+n-1:lo]` as a number (R8). -/
theorem field_toNat (w : Word32) (lo n : Nat) : (w.extractLsb' lo n).toNat = w.toNat / 2 ^ lo % 2 ^ n := by
  rw [BitVec.extractLsb'_toNat, Nat.shiftRight_eq_div_pow]

end Sys2Proof
end

