-- ==== Sys2Proof/Laws/PerInstr.lean ====
section
/-! SUPPORT. A statement about each command as syntax: its word carries its opcode and has zero reserved bits, as its
row of `opcode_table.json` says (R92 to R98). -/

namespace Sys2Proof.Laws

/-- The row of `opcode_table.json` a command belongs to. -/
def rowOf : Instr → TableRow
  | .nop => ⟨"NOP", 0xFFFFFFFF, 0x00000000⟩
  | .setw _ => ⟨"SETW", 0xFFFF0000, 0x10000000⟩
  | .seth _ => ⟨"SETH", 0xFFFF0000, 0x20000000⟩
  | .start => ⟨"START", 0xFFFFFFFF, 0x30000000⟩
  | .pix _ _ _ => ⟨"PIX", 0xFF000000, 0x40000000⟩
  | .qry _ _ _ => ⟨"QRY", 0xFF000000, 0x50000000⟩
  | .palrd _ => ⟨"PALRD", 0xFFFFFFF0, 0x60000000⟩
  | .rdreg _ => ⟨"RDREG", 0xFFFFFFF8, 0x70000000⟩
  | .clr => ⟨"CLR", 0xFFFFFFFF, 0x80000000⟩

/-- The word of the command matches its row. -/
def WordMatchesRow.Statement (i : Instr) : Prop :=
  rowOf i ∈ opcodeTable ∧ (rowOf i).mnemonic = i.mnemonic ∧ encode i &&& (rowOf i).mask = (rowOf i).value

/-- A mask that keeps the high part of a word drops the low part. -/
theorem append_and_highMask {m n : Nat} (hi : BitVec m) (lo : BitVec n) :
    (hi ++ lo) &&& (BitVec.allOnes m ++ 0#n) = hi ++ 0#n := by
  simp [BitVec.and_append]

theorem WordMatchesRow.nop : WordMatchesRow.Statement .nop := ⟨by decide, rfl, by decide⟩

theorem WordMatchesRow.setw (dim : Dim) : WordMatchesRow.Statement (.setw dim) :=
  ⟨by simp [rowOf, opcodeTable], rfl, append_and_highMask 0x1000#16 dim⟩

theorem WordMatchesRow.seth (dim : Dim) : WordMatchesRow.Statement (.seth dim) :=
  ⟨by simp [rowOf, opcodeTable], rfl, append_and_highMask 0x2000#16 dim⟩

theorem WordMatchesRow.start : WordMatchesRow.Statement .start := ⟨by decide, rfl, by decide⟩

theorem WordMatchesRow.pix (r g b : Comp) : WordMatchesRow.Statement (.pix r g b) :=
  ⟨by simp [rowOf, opcodeTable], rfl, append_and_highMask 0x40#8 (rgbBits ⟨r, g, b⟩)⟩

theorem WordMatchesRow.qry (r g b : Comp) : WordMatchesRow.Statement (.qry r g b) :=
  ⟨by simp [rowOf, opcodeTable], rfl, append_and_highMask 0x50#8 (rgbBits ⟨r, g, b⟩)⟩

theorem WordMatchesRow.palrd (idx : PalIndex) : WordMatchesRow.Statement (.palrd idx) :=
  ⟨by simp [rowOf, opcodeTable], rfl, append_and_highMask 0x6000000#28 idx⟩

theorem WordMatchesRow.rdreg (reg : Reg) : WordMatchesRow.Statement (.rdreg reg) :=
  ⟨by simp [rowOf, opcodeTable], rfl, append_and_highMask (0x7#4 ++ 0#25) reg.num⟩

theorem WordMatchesRow.clr : WordMatchesRow.Statement .clr := ⟨by decide, rfl, by decide⟩

end Sys2Proof.Laws
end

