-- ==== Sys2Proof/Tests/Slice0.lean ====
section
/-! SUPPORT. Tests of the model. Expected values come from `95_test_vectors.md` (the section or program step is named)
or from the rule named; words are written out from the encodings of `30_encoding.md`. The last part shows, for every
statement with hypotheses, states and operands that meet them. -/

namespace Sys2Proof.Machine

/-! ### Decoding, bit by bit -/

/-- NOP: opcode 0, 28 zero bits (R92, R94). -/
theorem test_decode_nop : decode 0b0000_0000_0000_0000_0000_0000_0000_0000 = .ok .nop := by decide

/-- SETW 0x8001: opcode 1, 12 zero bits, 16 bits of dimension (R92, R95). -/
theorem test_decode_setw : decode 0b0001_0000_0000_0000_1000_0000_0000_0001 = .ok (.setw 0x8001) := by decide

/-- SETH 180 (section 2.4). -/
theorem test_decode_seth : decode 0b0010_0000_0000_0000_0000_0000_1011_0100 = .ok (.seth 180) := by decide

/-- START: opcode 3 (R92, R94). -/
theorem test_decode_start : decode 0b0011_0000_0000_0000_0000_0000_0000_0000 = .ok .start := by decide

/-- PIX 18, 52, 86: red in bits 23:16, green in 15:8, blue in 7:0 (R96, R97). -/
theorem test_decode_pix : decode 0b0100_0000_0001_0010_0011_0100_0101_0110 = .ok (.pix 18 52 86) := by decide

/-- QRY 94, 0, 1 (R96, R97). -/
theorem test_decode_qry : decode 0b0101_0000_0101_1110_0000_0000_0000_0001 = .ok (.qry 94 0 1) := by decide

/-- PALRD 12: index in bits 3:0 (R98). -/
theorem test_decode_palrd : decode 0b0110_0000_0000_0000_0000_0000_0000_1100 = .ok (.palrd 12) := by decide

/-- RDREG 6: number in bits 2:0 (R98, R21). -/
theorem test_decode_rdreg : decode 0b0111_0000_0000_0000_0000_0000_0000_0110 = .ok (.rdreg .bytecnt) := by decide

/-- CLR: opcode 8 (R92, R94). -/
theorem test_decode_clr : decode 0b1000_0000_0000_0000_0000_0000_0000_0000 = .ok .clr := by decide

/-- The lowest and highest reserved bit of each format, and the reserved opcodes' ends (R94 to R99). -/
theorem test_decode_illegal :
    decode 0x00000001 = .error .reservedBits ∧ decode 0x08000000 = .error .reservedBits ∧
    decode 0x10010000 = .error .reservedBits ∧ decode 0x28000000 = .error .reservedBits ∧
    decode 0x41000000 = .error .reservedBits ∧ decode 0x58000000 = .error .reservedBits ∧
    decode 0x60000010 = .error .reservedBits ∧ decode 0x68000000 = .error .reservedBits ∧
    decode 0x70000008 = .error .reservedBits ∧ decode 0x78000000 = .error .reservedBits ∧
    decode 0x30000001 = .error .reservedBits ∧ decode 0x88000000 = .error .reservedBits ∧
    decode 0x90000000 = .error .reservedOpcode ∧ decode 0xFFFFFFFF = .error .reservedOpcode := by decide

/-- The host's reading of a row's word. -/
theorem test_table_word : decodeTableWord 32 0x6000000F = some (.palrd 15) ∧ decodeTableWord 32 0x60000010 = none := by
  decide

/-! ### Ill-formed operands are refused (R105) -/

theorem test_wf_setw : (AsmLine.setw 65535).wellFormed = true ∧ (AsmLine.setw 65536).wellFormed = false := by decide
theorem test_wf_seth : (AsmLine.seth 65535).wellFormed = true ∧ (AsmLine.seth 65536).wellFormed = false := by decide
theorem test_wf_pix : (AsmLine.pix 256 0 0).wellFormed = false ∧ (AsmLine.pix 0 256 0).wellFormed = false ∧
    (AsmLine.pix 0 0 256).wellFormed = false := by decide
theorem test_wf_qry : (AsmLine.qry 256 0 0).wellFormed = false ∧ (AsmLine.qry 0 256 0).wellFormed = false ∧
    (AsmLine.qry 0 0 256).wellFormed = false := by decide
theorem test_wf_palrd : (AsmLine.palrd 16).wellFormed = false := by decide
theorem test_wf_rdreg : (AsmLine.rdreg 8).wellFormed = false := by decide
theorem test_wf_word : (AsmLine.word 4294967296).wellFormed = false := by decide
theorem test_wf_convert : (AsmLine.convert 65536 1).wellFormed = false ∧ (AsmLine.convert 1 65536).wellFormed = false := by
  decide
theorem test_wf_pixhex : (AsmLine.pixhex 16777216).wellFormed = false := by decide

/-- A line of text with its comment, a register by name, hexadecimal, and a range error (R105, R106). -/
theorem test_assemble_text :
    assembleText "PIX 220, 218, 221 ; entry 7".toList = some [0x40DCDADD] ∧
    assembleText "RDREG FCMD".toList = some [0x70000007] ∧
    assembleText "PIXHEX 0x5447FB".toList = some [0x405447FB] ∧
    assembleText "CONVERT 2, 1".toList = some [0x10000002, 0x20000001, 0x30000000] ∧
    assembleText "SETW 65536".toList = none := by decide

/-! ### One step, small states -/

/-- IDLE after SETW and SETH. -/
def idleAt (w h : Dim) : State := { State.reset with width := w, height := h }

/-- RUN at a position, `n` bytes pushed. -/
def runAt (w h x y : Dim) (hold : PalIndex) (n : Word32) : State :=
  { State.reset with
    seq := .run, width := w, height := h, xpos := x, ypos := y, hold := hold, bytecnt := n, oddw := w.getLsbD 0 }

/-- FAULT with a record. -/
def faultAt (c : Cause) (w : Word32) : State := { State.reset with seq := .fault, cause := c, fcmd := w }

/-- One word at the head of CMD. -/
def State.given (s : State) (w : Word32) : State := { s with cmd := [w] }

/-- P1 step 1. -/
theorem test_setw : step (State.reset.given 0x10000002) = .next (idleAt 2 0) := by rfl

/-- P3 step 20: SETH 9 in RUN is UNDERRUN, HEIGHT stays 2 and the position is frozen. -/
theorem test_seth_underrun : step ((runAt 2 2 0 1 0 1).given 0x20000009) =
    .next { runAt 2 2 0 1 0 1 with seq := .fault, cause := .underrun, fcmd := 0x20000009 } := by rfl

/-- P2 step 3. -/
theorem test_start : step ((idleAt 3 2).given 0x30000000) = .next (runAt 3 2 0 0 0 0) := by rfl

/-- P3 step 11. -/
theorem test_start_baddim : step (State.reset.given 0x30000000) = .next (faultAt .baddim 0x30000000) := by rfl

/-- P2 step 12: the right pixel (128,128,128), index 8, with 11 in HOLD, pushes 0xB8. -/
theorem test_pix_right : step ((runAt 3 2 1 1 11 2).given 0x40808080) =
    .next { runAt 3 2 2 1 0 3 with out := [0xB8] } := by rfl

/-- P2 step 14: the last column of an odd row pushes the index and the filler, and ends the run. -/
theorem test_pix_last : step ((runAt 3 2 2 1 0 3).given 0x40FFFFFF) =
    .next { idleAt 3 2 with bytecnt := 4, done := true, oddw := true, out := [0xF0] } := by rfl

/-- P3 step 6: the tie between entries 2 and 10, answered in FAULT. -/
theorem test_qry_tie : step ((faultAt .overrun 0x40010203).given 0x5000F600) =
    .next { faultAt .overrun 0x40010203 with rsp := [2] } := by rfl

/-- P3 step 7. -/
theorem test_palrd : step ((faultAt .overrun 0x40010203).given 0x6000000C) =
    .next { faultAt .overrun 0x40010203 with rsp := [0x005447FB] } := by rfl

/-- P4 step 9: DONE, ODDW, FAULT and cause 3 in one STATUS word. -/
theorem test_rdreg_status :
    step ({ faultAt .overrun 0x40000000 with done := true, oddw := true }.given 0x70000000) =
      .next { faultAt .overrun 0x40000000 with done := true, oddw := true, rsp := [0x0000003E] } := by rfl

/-- P2 step 7. -/
theorem test_rdreg_xpos : step ((runAt 3 2 2 0 0 1).given 0x70000003) =
    .next { runAt 3 2 2 0 0 1 with rsp := [2] } := by rfl

/-- P5 step 8: CLR in RUN drops the held index and keeps OUT and the dimensions. -/
theorem test_clr : step ({ runAt 4 1 3 0 3 1 with out := [0x12] }.given 0x80000000) =
    .next { idleAt 4 1 with out := [0x12] } := by rfl

/-- R201's example: NOP in RUN with XPOS 1 and HOLD 9. -/
theorem test_nop : step ((runAt 4 1 1 0 9 0).given 0x00000000) = .next (runAt 4 1 1 0 9 0) := by rfl

/-- P3 steps 27 and 29: an illegal word faults in IDLE and is discarded in FAULT. -/
theorem test_illegal : step ((idleAt 2 2).given 0x90000000) =
      .next { faultAt .illcmd 0x90000000 with width := 2, height := 2 } ∧
    step ((faultAt .illcmd 0x90000000).given 0x30000001) = .next (faultAt .illcmd 0x90000000) := by
  exact ⟨by rfl, by rfl⟩

/-- The fetch the host sets up runs the row's command after reset. -/
theorem test_withFetchWord : step (State.reset.withFetchWord 32 0x10000140) = .next (idleAt 320 0) := by rfl

/-- Section 1: the 2 by 1 example, and P2's grid, by the reference function. -/
theorem test_convert :
    convert (fun x _ => if x = 0 then ⟨0, 0, 0⟩ else ⟨255, 255, 255⟩) 2 1 = [0x0F] ∧
    convert (fun x y => match y, x with
      | 0, 0 => ⟨255, 0, 0⟩
      | 0, 1 => ⟨0, 255, 0⟩
      | 0, _ => ⟨0, 0, 255⟩
      | _, 0 => ⟨255, 255, 0⟩
      | _, 1 => ⟨128, 128, 128⟩
      | _, _ => ⟨255, 255, 255⟩) 3 2 = [0x9A, 0x40, 0xB8, 0xF0] := by decide

/-! ### Witnesses: hypotheses of the statements are met -/

/-- RSP full, whatever its capacity. -/
def rspFull : State := { State.reset with rsp := List.replicate Config.rspDepth 0 }

/-- RSP with room for one word more. -/
def rspAlmostFull : State := { State.reset with rsp := List.replicate Config.rspSpare 0 }

/-- RUN at an odd column with OUT full. -/
def outFull : State := { runAt 2 1 1 0 5 0 with out := List.replicate Config.outDepth 0 }

/-- RUN at an odd column, OUT with room for one byte more. -/
def outAlmostFull : State := { runAt 2 1 1 0 5 0 with out := List.replicate Config.outSpare 0 }

theorem witness_EncodeInvertsDecode : decode 0x70000007 = .ok (.rdreg .fcmd) := by decide

theorem witness_DecodeFollowsOpcodeTable :
    (0xFFFFFFFF : Word32) ≠ 0 ∧ (∀ row ∈ opcodeTable, (0x90000000 : Word32) &&& row.mask ≠ row.value) ∧
    (∃ row ∈ opcodeTable, (0x6000000F : Word32) &&& row.mask = row.value) ∧
    decode 0x1000FFFF = .ok (.setw 65535) ∧ decode 0x20000000 = .ok (.seth 0) ∧
    decode 0x40FFFFFF = .ok (.pix 255 255 255) ∧ decode 0x50000000 = .ok (.qry 0 0 0) ∧
    decode 0x6000000F = .ok (.palrd 15) ∧ decode 0x70000000 = .ok (.rdreg .status) := by decide

/-- Both branches of the equivalence occur: an illegal and a legal word. -/
theorem witness_IllegalExactlyByOpcodeOrReservedBit :
    (0x10010000 : Word32).toNat / 2 ^ 28 = 1 ∧ (0x10010000 : Word32).toNat / 2 ^ 16 % 2 ^ 12 ≠ 0 ∧
    (0x1000FFFF : Word32).toNat / 2 ^ 16 % 2 ^ 12 = 0 := by decide

theorem witness_InfiniteDistanceUnobservable : 195075 < 195076 := by decide

theorem witness_NearestIsFirstMinimum : nearest ⟨94, 0, 0⟩ = 0 ∧ nearest ⟨95, 0, 0⟩ = 1 := by decide

/-- Clause (d) at a tie: both tied entries are minimal. -/
theorem witness_NearestLaws :
    (∀ k, distance ⟨94, 0, 0⟩ 0 ≤ distance ⟨94, 0, 0⟩ k) ∧ (∀ k, distance ⟨94, 0, 0⟩ 1 ≤ distance ⟨94, 0, 0⟩ k) := by decide

theorem witness_NopCommand : opcodeOf 0x00000001 = 0 ∧ (0x00000001 : Word32) ≠ 0 ∧ opcodeOf 0x0FFFFFFF = 0 := by decide

/-- IDLE, RUN and FAULT, and the write of 0. -/
theorem witness_SetwCommand : (idleAt 2 1).seq = .idle ∧ (runAt 2 1 0 0 0 0).seq = .run ∧
    (faultAt .baddim 0x30000000).seq = .fault ∧ exec (.setw 0) (idleAt 2 1) = .next (idleAt 0 1) := by
  exact ⟨rfl, rfl, rfl, rfl⟩

theorem witness_SethCommand : (idleAt 2 1).seq = .idle ∧ (runAt 2 1 0 0 0 0).seq = .run ∧
    (faultAt .baddim 0x30000000).seq = .fault ∧ exec (.seth 0) (idleAt 2 1) = .next (idleAt 2 0) := by
  exact ⟨rfl, rfl, rfl, rfl⟩

theorem witness_StartCommand :
    ((idleAt 65535 1).seq = .idle ∧ (idleAt 65535 1).width ≠ 0 ∧ (idleAt 65535 1).height ≠ 0) ∧
    (idleAt 0 1).width = 0 ∧ (idleAt 1 0).height = 0 ∧ (runAt 2 1 0 0 0 0).seq = .run ∧
    (faultAt .baddim 0x30000000).seq = .fault := by decide

theorem witness_StartCommand_example :
    exec .start { State.reset with width := 3, height := 1 } = .next (runAt 3 1 0 0 0 0) := by rfl

/-- A beat that fills HOLD; beats that push at an odd column, in a last column that is even, in a last column that is
odd, in the last row and before it. -/
theorem witness_PixCommand :
    (State.reset.seq = .idle ∧ (faultAt .illcmd 0x90000000).seq = .fault) ∧
    ((runAt 2 1 0 0 0 0).seq = .run ∧ (runAt 2 1 0 0 0 0).xpos.toNat % 2 = 0 ∧
      (runAt 2 1 0 0 0 0).xpos.toNat + 1 ≠ (runAt 2 1 0 0 0 0).width.toNat) ∧
    ((runAt 3 2 1 0 9 0).xpos.toNat % 2 = 1 ∧ (runAt 3 2 1 0 9 0).xpos.toNat + 1 ≠ 3) ∧
    ((runAt 65535 2 65534 1 0 0).xpos.toNat % 2 = 0 ∧
      (runAt 65535 2 65534 1 0 0).xpos.toNat + 1 = (runAt 65535 2 65534 1 0 0).width.toNat) ∧
    (runAt 2 2 1 0 9 0).xpos.toNat + 1 = (runAt 2 2 1 0 9 0).width.toNat := by decide

theorem witness_PixCommand_room :
    (outAlmostFull.seq = .run ∧ outAlmostFull.xpos.toNat % 2 = 1 ∧ outAlmostFull.out.length < Config.outDepth) ∧
    (outFull.seq = .run ∧ outFull.xpos.toNat % 2 = 1 ∧ Config.outDepth ≤ outFull.out.length) := by
  simp [outAlmostFull, outFull, runAt, Config.outDepth]

theorem witness_PixCommand_example :
    exec (.pix 0 0 0) (runAt 2 1 0 0 0 0) = .next (runAt 2 1 1 0 0 0) ∧
    exec (.pix 255 255 255) (runAt 2 1 1 0 0 0) =
      .next { idleAt 2 1 with bytecnt := 1, done := true, out := [0x0F] } := by exact ⟨by rfl, by rfl⟩

/-- The two cases of QRY, PALRD and RDREG at their boundary: one free place, and none. -/
theorem witness_QryCommand :
    rspAlmostFull.rsp.length < Config.rspDepth ∧ Config.rspDepth ≤ rspFull.rsp.length := by
  simp [rspAlmostFull, rspFull, Config.rspDepth]

theorem witness_PalrdCommand :
    rspAlmostFull.rsp.length < Config.rspDepth ∧ Config.rspDepth ≤ rspFull.rsp.length := witness_QryCommand

theorem witness_RdregCommand :
    rspAlmostFull.rsp.length < Config.rspDepth ∧ Config.rspDepth ≤ rspFull.rsp.length := witness_QryCommand

theorem witness_RdregCommand_example :
    exec (.pix 1 2 3) (runAt 3 1 0 0 0 0) = .next (runAt 3 1 1 0 0 0) := by rfl

theorem witness_ClrCommand :
    exec .clr State.reset = .next State.reset ∧
    (faultAt .overrun 0x40010203).seq = .fault ∧ (faultAt .overrun 0x40010203).statusWord = 0x00000038 ∧
    exec .clr (faultAt .overrun 0x40010203) = .next State.reset ∧
    exec .nop (faultAt .overrun 0x40010203) = .next (faultAt .overrun 0x40010203) := by
  exact ⟨rfl, rfl, rfl, rfl, rfl⟩

theorem witness_ResetAnywhere :
    (Link.to (State.reset.given 0x70000000)).after .step = some (Link.to { State.reset with rsp := [0] }) ∧
    Event.step ≠ .reset ∧ Event.step ≠ .takeOut := by exact ⟨by rfl, by decide, by decide⟩

/-- The invariant in IDLE, in RUN at an odd column, and in FAULT. -/
theorem witness_ReadableValues :
    blockInv (idleAt 0 65535) ∧ blockInv (runAt 4 2 1 1 7 2) ∧ blockInv (faultAt .overrun 0x40010203) := by
  refine ⟨?_, ?_, ?_⟩
  · show idleInv _; unfold idleInv; decide
  · show runInv _; unfold runInv; decide
  · exact ⟨⟨1, 2, 3, by decide⟩, by decide, by decide, by decide⟩

theorem witness_ResetValues : (Link.to (runAt 2 1 0 0 0 0)).after .reset = some (Link.to State.reset) := by rfl

/-- The smallest and largest dimensions, and a read. -/
theorem witness_InitialisationNeeded :
    (1 : Dim) ≠ 0 ∧ (65535 : Dim) ≠ 0 ∧ isQuietCommand (.rdreg .status) = true := by decide

theorem witness_InitialisationNeeded_steps :
    step (State.reset.given 0x30000000) = .next (faultAt .baddim 0x30000000) ∧
    step ((idleAt 65535 0).given 0x30000000) = .next { faultAt .baddim 0x30000000 with width := 65535 } ∧
    step ((idleAt 0 1).given 0x30000000) = .next { faultAt .baddim 0x30000000 with height := 1 } ∧
    step ((idleAt 65535 1).given 0x30000000) = .next (runAt 65535 1 0 0 0 0) := by
  exact ⟨by rfl, by rfl, by rfl, by rfl⟩

theorem witness_StepRunsTheDecodedCommand :
    State.reset.cmd = [] ∧ decode 0x50123456 = .ok (.qry 18 52 86) ∧ (State.reset.given 0x90000000).seq ≠ .fault ∧
    decode 0x90000000 = .error .reservedOpcode ∧ (faultAt .illcmd 0x90000000).seq = .fault := by decide

/-- Enabled, and not enabled for want of a command. -/
theorem witness_StepHappensExactlyWhenEnabled :
    (State.reset.given 0x70000000).enabled = true ∧ State.reset.enabled = false := by exact ⟨by rfl, by rfl⟩

/-- Not enabled for want of room: a held RDREG. -/
theorem witness_StepHappens_held : (rspFull.given 0x70000000).enabled = false := by
  have h : (rspFull.given 0x70000000).rspHasRoom = false := by
    apply Bool.eq_false_iff.mpr
    rw [Ne, State.rspHasRoom_iff]
    simp [State.given, rspFull]
  have hp : wordPushesRsp 0x70000000 = true := by decide
  have he : (rspFull.given 0x70000000).enabled =
      ((!wordPushesOut 0x70000000 (rspFull.given 0x70000000) || (rspFull.given 0x70000000).outHasRoom) &&
        (!wordPushesRsp 0x70000000 || (rspFull.given 0x70000000).rspHasRoom)) := rfl
  rw [he, h, hp]; simp

theorem witness_ChannelsAreQueues :
    (∃ l', (Link.to State.reset).after (.append 5) = some l') ∧
    (∃ l', (Link.to { State.reset with out := [1, 2] }).after .takeOut = some l') ∧
    (∃ l', (Link.to { State.reset with rsp := [1, 2] }).after .takeRsp = some l') := by
  exact ⟨⟨_, rfl⟩, ⟨_, rfl⟩, ⟨_, rfl⟩⟩

theorem witness_OnlyReadsRespond :
    step ((runAt 3 2 2 0 0 1).given 0x70000003) = .next { runAt 3 2 2 0 0 1 with rsp := [2] } ∧
    ([2] : List Word32) ≠ [] := by exact ⟨by rfl, by decide⟩

theorem witness_ReadsChangeNoRegister :
    ((runAt 3 2 2 0 0 1).given 0x70000003).cmd = [0x70000003] ∧ isQuiet 0x70000003 = true := by decide

theorem witness_DimensionsChangeOnlyBySetting :
    step (State.reset.given 0x1000FFFF) = .next (idleAt 65535 0) ∧ (idleAt 65535 0).width ≠ State.reset.width ∧
    step (State.reset.given 0x20000001) = .next (idleAt 0 1) ∧ (idleAt 0 1).height ≠ State.reset.height := by
  exact ⟨by rfl, by decide, by rfl, by decide⟩

theorem witness_OddWidthFlagSteersNothing :
    ((runAt 3 2 2 0 0 1).given 0x400000FF).cmd.head? ≠ some (encode (.rdreg .status)) ∧
    step ((runAt 3 2 2 0 0 1).given 0x400000FF) = .next { runAt 3 2 0 1 0 2 with out := [0x40] } := by
  exact ⟨by decide, by rfl⟩

/-- DONE set, cleared by START, cleared by CLR, left by a fault. -/
theorem witness_DoneFlagRule :
    (step ((runAt 3 2 2 1 0 3).given 0x40FFFFFF) =
        .next { idleAt 3 2 with bytecnt := 4, done := true, oddw := true, out := [0xF0] } ∧
      (runAt 3 2 2 1 0 3).done = false ∧ blockInv (runAt 3 2 2 1 0 3)) ∧
    step ({ idleAt 3 2 with done := true }.given 0x30000000) = .next (runAt 3 2 0 0 0 0) ∧
    step ({ idleAt 3 2 with done := true }.given 0x80000000) = .next (idleAt 3 2) ∧
    step ({ idleAt 3 2 with done := true }.given 0x40000000) =
      .next { faultAt .overrun 0x40000000 with done := true, width := 3, height := 2 } := by
  refine ⟨⟨by rfl, rfl, ?_⟩, by rfl, by rfl, by rfl⟩
  show runInv _; unfold runInv; decide

/-- One step for each row of the table of causes. -/
theorem witness_EveryFaultIsInTheTable :
    step (State.reset.given 0x90000000) = .next (faultAt .illcmd 0x90000000) ∧
    step ((idleAt 0 1).given 0x30000000) = .next { faultAt .baddim 0x30000000 with height := 1 } ∧
    step (State.reset.given 0x40010203) = .next (faultAt .overrun 0x40010203) ∧
    step ((runAt 2 2 0 1 0 1).given 0x30000000) =
      .next { runAt 2 2 0 1 0 1 with seq := .fault, cause := .underrun, fcmd := 0x30000000 } := by
  exact ⟨by rfl, by rfl, by rfl, by rfl⟩

theorem witness_FaultPriority :
    step ((faultAt .illcmd 0x90000000).given 0x40010203) = .next (faultAt .illcmd 0x90000000) ∧
    decode 0x30000001 = .error .reservedBits ∧ decode 0x40010203 = .ok (.pix 1 2 3) ∧
    decode 0x10000005 = .ok (.setw 5) ∧ decode 0x20000005 = .ok (.seth 5) ∧ decode 0x30000000 = .ok .start ∧
    (idleAt 1 0).seq = .idle ∧ (idleAt 1 0).height = 0 ∧ (runAt 2 2 0 1 0 1).seq = .run := by
  exact ⟨by rfl, by decide, by decide, by decide, by decide, by decide, rfl, rfl, rfl⟩

theorem witness_FaultStateDiscards :
    (faultAt .illcmd 0x90000000).seq = .fault ∧ decode 0x5000F600 = .ok (.qry 0 246 0) ∧ isQuiet 0x5000F600 = true ∧
    decode 0x80000000 = .ok .clr ∧ decode 0x10000005 = .ok (.setw 5) ∧ isQuiet 0x10000005 = false := by decide

theorem witness_OnlyClrLeavesFault :
    step ((faultAt .illcmd 0x90000000).given 0x80000000) = .next State.reset ∧
    step ((faultAt .illcmd 0x90000000).given 0x30000000) = .next (faultAt .illcmd 0x90000000) ∧
    (Link.to (faultAt .illcmd 0x90000000)).after .reset = some (Link.to State.reset) := by
  exact ⟨by rfl, by rfl, rfl⟩

theorem witness_StepKeepsInvariant :
    blockInv ((runAt 3 2 2 0 0 1).given 0x400000FF) ∧
    step ((runAt 3 2 2 0 0 1).given 0x400000FF) = .next { runAt 3 2 0 1 0 2 with out := [0x40] } := by
  refine ⟨?_, by rfl⟩
  show runInv _; unfold runInv; decide

/-- A state of RUN that a schedule reaches, and one of FAULT. -/
theorem witness_ReachableStatesHaveInvariant :
    Reachable { runAt 3 2 0 0 0 0 with cmd := [] } ∧ Reachable (faultAt .overrun 0x40010203) := by
  refine ⟨⟨[.append 0x10000003, .step, .append 0x20000002, .step, .append 0x30000000, .step], _, by rfl, by rfl⟩,
    ⟨[.append 0x40010203, .step], _, by rfl, by rfl⟩⟩

/-- CMD with one free place. -/
def cmdAlmostFull : State := { State.reset with cmd := List.replicate Config.cmdSpare 0 }

/-- An append at the boundary. -/
theorem witness_EventsKeepChannelsFitting :
    channelsFit cmdAlmostFull ∧ ((Link.to cmdAlmostFull).after (.append 5)).isSome = true := by
  have h : (Link.to cmdAlmostFull).block.cmdHasRoom = true := by
    rw [State.cmdHasRoom_iff]; simp [Link.to, cmdAlmostFull, Config.cmdDepth]
  refine ⟨by simp [channelsFit, cmdAlmostFull, State.reset, Config.cmdDepth], ?_⟩
  simp only [Link.after, h, if_true, Option.isSome_some]

theorem lastBeat_noSetting : ¬takesSetting ((runAt 1 1 0 0 0 0).given 0x40FFFFFF) := fun h => (by cases h.1)

/-- The last beat of a run, as a step and as a schedule. -/
theorem witness_DoneCountKept :
    blockInv ((runAt 1 1 0 0 0 0).given 0x40FFFFFF) ∧ ((runAt 1 1 0 0 0 0).given 0x40FFFFFF).done = false ∧
    doneCount ((runAt 1 1 0 0 0 0).given 0x40FFFFFF) ∧ ¬takesSetting ((runAt 1 1 0 0 0 0).given 0x40FFFFFF) ∧
    step ((runAt 1 1 0 0 0 0).given 0x40FFFFFF) =
      .next { idleAt 1 1 with bytecnt := 1, done := true, oddw := true, out := [0xF0] } ∧
    noSettingTaken [.step] (Link.to ((runAt 1 1 0 0 0 0).given 0x40FFFFFF)) ∧
    Link.run [.step] (Link.to ((runAt 1 1 0 0 0 0).given 0x40FFFFFF)) =
      some (Link.to { idleAt 1 1 with bytecnt := 1, done := true, oddw := true, out := [0xF0] }) := by
  refine ⟨?_, rfl, fun h => (by cases h), lastBeat_noSetting, by rfl, ⟨fun _ => lastBeat_noSetting, by trivial⟩, by rfl⟩
  show runInv _; unfold runInv; decide

/-- First and last byte of an odd width. -/
theorem witness_ConvertBytes : 0 < 2 * ((3 + 1) / 2) ∧ 3 < 2 * ((3 + 1) / 2) := by decide

theorem witness_ConvertExamples :
    ∃ grid : Nat → Nat → Rgb, grid 0 0 = ⟨0, 0, 0⟩ ∧ grid 1 0 = ⟨255, 255, 255⟩ :=
  ⟨fun x _ => if x = 0 then ⟨0, 0, 0⟩ else ⟨255, 255, 255⟩, rfl, rfl⟩

/-- A whole run of a 3 by 1 white grid, a read among its beats, bytes removed as they come. -/
def wholeRun : List Event :=
  [.append 0x30000000, .step, .append 0x40FFFFFF, .step, .append 0x70000003, .step, .append 0x40FFFFFF, .step,
   .takeOut, .append 0x40FFFFFF, .step]

/-- The words of that run after its START. -/
def wholeWords : List Word32 := [0x40FFFFFF, 0x70000003, 0x40FFFFFF, 0x40FFFFFF]

/-- A white grid. -/
def whiteGrid : Nat → Nat → Rgb := fun _ _ => ⟨255, 255, 255⟩

theorem witness_SchedulesAgree :
    Link.run wholeRun (Link.to (idleAt 3 1)) = some
      ⟨{ idleAt 3 1 with done := true, oddw := true, bytecnt := 2, out := [0xF0], rsp := [1] }, [0xFF], []⟩ ∧
    .reset ∉ wholeRun := by decide

/-- The pixels of the words, in two halves that each evaluate quickly. -/
theorem witness_wholePixels : wholeWords.filterMap pixelOf = gridPixels whiteGrid 3 3 :=
  Eq.trans (b := [⟨255, 255, 255⟩, ⟨255, 255, 255⟩, ⟨255, 255, 255⟩]) (by decide) (by decide)

/-- The run itself is `witness_SchedulesAgree`. -/
theorem witness_CommandsComputeConvert :
    (idleAt 3 1).seq = .idle ∧ (idleAt 3 1).width ≠ 0 ∧ (idleAt 3 1).height ≠ 0 ∧ (idleAt 3 1).cmd = [] ∧
    appendedWords wholeRun = encode .start :: wholeWords ∧
    (∀ w ∈ wholeWords, isPix w = true ∨ isQuiet w = true) ∧ .reset ∉ wholeRun :=
  by
  have hp : isPix 0x40FFFFFF = true := by decide
  have hq : isQuiet 0x70000003 = true := by decide
  exact ⟨rfl, by decide, by decide, rfl, by decide,
    List.forall_mem_cons.2 ⟨.inl hp, List.forall_mem_cons.2 ⟨.inr hq, List.forall_mem_cons.2 ⟨.inl hp,
      List.forall_mem_cons.2 ⟨.inl hp, List.forall_mem_nil _⟩⟩⟩⟩, by decide⟩

/-- An open pair: one beat of a row of three. -/
theorem witness_PrefixOfConversion :
    1 ≤ (idleAt 3 1).width.toNat * (idleAt 3 1).height.toNat ∧
    Link.run (wholeRun.take 4) (Link.to (idleAt 3 1)) = some (Link.to (runAt 3 1 1 0 15 0)) ∧
    appendedWords (wholeRun.take 4) = encode .start :: [0x40FFFFFF] ∧ isPix 0x40FFFFFF = true ∧
    .reset ∉ wholeRun.take 4 := by decide

theorem witness_prefixPixels : ([0x40FFFFFF] : List Word32).filterMap pixelOf = gridPixels whiteGrid 3 1 :=
  Eq.trans (b := [⟨255, 255, 255⟩]) (by decide) (by decide)

/-- Two blocks that differ in their flags and in what OUT holds. -/
theorem witness_RunsRepeat :
    ({ idleAt 1 1 with cmd := [0x30000000, 0x40FFFFFF] }.cmd = encode .start :: [0x40FFFFFF] ∧
      { idleAt 1 1 with done := true, oddw := true, out := [7], cmd := [0x30000000, 0x40FFFFFF] }.cmd =
        encode .start :: [0x40FFFFFF]) ∧
    (idleAt 1 1).seq = .idle ∧ { idleAt 1 1 with done := true, oddw := true }.width = (idleAt 1 1).width ∧
    { idleAt 1 1 with done := true, oddw := true }.height = (idleAt 1 1).height := by decide

/-- CMD cut at a RDREG between two beats, and the schedule of `witness_SchedulesAgree` cut at the same word. -/
theorem witness_ResponsesMatchRequests :
    { idleAt 3 1 with cmd := 0x30000000 :: wholeWords }.cmd =
      [0x30000000, 0x40FFFFFF] ++ 0x70000003 :: [0x40FFFFFF, 0x40FFFFFF] ∧
    appendedWords wholeRun = [0x30000000, 0x40FFFFFF] ++ 0x70000003 :: [0x40FFFFFF, 0x40FFFFFF] ∧
    { idleAt 3 1 with cmd := [0x30000000, 0x40FFFFFF] }.drained = runAt 3 1 1 0 15 0 ∧
    wordResponse 0x70000003 (runAt 3 1 1 0 15 0) = some 1 := by
  exact ⟨rfl, by decide, by rfl, by decide⟩

/-- Each range at its end and one past it. -/
theorem witness_AssemblerWords :
    assemble (.setw 65535) = some [0x1000FFFF] ∧ assemble (.setw 65536) = none ∧
    assemble (.pix 255 255 255) = some [0x40FFFFFF] ∧ assemble (.qry 0 0 256) = none ∧
    assemble (.palrd 15) = some [0x6000000F] ∧ assemble (.palrd 16) = none ∧
    assemble (.rdreg 7) = some [0x70000007] ∧ assemble (.rdreg 8) = none ∧
    assemble (.word 4294967295) = some [0xFFFFFFFF] ∧ assemble (.word 4294967296) = none := by decide

theorem witness_PseudoInstructionsExpand :
    assemble (.convert 65535 0) = some [0x1000FFFF, 0x20000000, 0x30000000] ∧
    assemble (.pixhex 0xFFFFFF) = some [0x40FFFFFF] := by decide

end Sys2Proof.Machine
end

section
/-! PROOFS. The step by the head of CMD (R10): one equation for each of its three outcomes, what popping CMD and
taking an illegal word are once the head is known, and the statement assembled from them. -/

namespace Sys2Proof.Machine

theorem State.fetch_of_cmd_nil {s : State} (hcmd : s.cmd = []) : s.fetch = none := by
  rw [State.fetch, hcmd, List.head?_nil]

theorem State.fetch_of_cmd_cons {s : State} {w : Word32} {rest : List Word32} (hcmd : s.cmd = w :: rest) :
    s.fetch = some w := by
  rw [State.fetch, hcmd, List.head?_cons]

/-- With no command the block waits (R43). -/
theorem step_of_cmd_nil {s : State} (hcmd : s.cmd = []) : step s = .next s := by
  simp only [step, State.fetch_of_cmd_nil hcmd]

/-- A legal head word selects its command's rule (R10). -/
theorem step_of_decode_ok {s : State} {w : Word32} {rest : List Word32} {i : Instr} (hcmd : s.cmd = w :: rest)
    (hdec : decode w = .ok i) : step s = exec i s := by
  simp only [step, State.fetch_of_cmd_cons hcmd, hdec]

/-- An illegal head word goes to `illegalWord`, whatever made it illegal (R99). -/
theorem step_of_decode_error {s : State} {w : Word32} {rest : List Word32} {e : IllegalWord}
    (hcmd : s.cmd = w :: rest) (hdec : decode w = .error e) : step s = .next (s.illegalWord w) := by
  simp only [step, State.fetch_of_cmd_cons hcmd, hdec]

theorem State.popCmd_of_cmd_cons {s : State} {w : Word32} {rest : List Word32} (hcmd : s.cmd = w :: rest) :
    s.popCmd = { s with cmd := rest } := by
  rw [State.popCmd, hcmd, List.tail_cons]

theorem State.takeFault_of_cmd_cons {s : State} {w : Word32} {rest : List Word32} (hcmd : s.cmd = w :: rest)
    (c : Cause) (v : Word32) : s.takeFault c v = { s with cmd := rest, seq := .fault, cause := c, fcmd := v } := by
  rw [State.takeFault, State.popCmd_of_cmd_cons hcmd]

theorem State.illegalWord_of_fault {s : State} (hseq : s.seq = .fault) (w : Word32) : s.illegalWord w = s.popCmd := by
  obtain ⟨-, hpop⟩ | ⟨hne, -⟩ := State.illegalWord_cases w s
  · exact hpop
  · exact absurd hseq hne

theorem State.illegalWord_of_ne_fault {s : State} (hseq : s.seq ≠ .fault) (w : Word32) :
    s.illegalWord w = s.takeFault .illcmd w := by
  obtain ⟨hfault, -⟩ | ⟨-, htake⟩ := State.illegalWord_cases w s
  · exact absurd hfault hseq
  · exact htake

/-- Settles O29: the three equations of `step`, with an illegal word split on whether the block is in FAULT. -/
theorem stepRunsTheDecodedCommand : Obligations.StepRunsTheDecodedCommand := by
  refine ⟨fun _ hcmd => step_of_cmd_nil hcmd, fun _ _ _ _ hcmd hdec => step_of_decode_ok hcmd hdec, ?_, ?_⟩
  · intro s w rest e hcmd hdec hseq
    rw [step_of_decode_error hcmd hdec, State.illegalWord_of_ne_fault hseq, State.takeFault_of_cmd_cons hcmd]
  · intro s w rest e hcmd hdec hseq
    rw [step_of_decode_error hcmd hdec, State.illegalWord_of_fault hseq, State.popCmd_of_cmd_cons hcmd]

end Sys2Proof.Machine
end

section
/-! PROOFS. The decoder and the encoder undo each other (R92 to R98): each word is compared as a number. -/

namespace Sys2Proof

/-- A field of a word holds a value exactly when the two are the same number (R8). -/
theorem field_eq_iff (w : Word32) {lo n : Nat} (v : BitVec n) :
    w.extractLsb' lo n = v ↔ w.toNat / 2 ^ lo % 2 ^ n = v.toNat := by
  rw [← BitVec.toNat_inj, field_toNat]

/-- A reserved field is clear exactly when its number is 0 (R94, R95, R96, R98). -/
theorem unlessReserved_field_ok_iff (w : Word32) (lo n : Nat) (i j : Instr) :
    unlessReserved (w.extractLsb' lo n) i = .ok j ↔ w.toNat / 2 ^ lo % 2 ^ n = 0 ∧ i = j := by
  rw [unlessReserved_ok_iff, field_eq_iff]; simp

/-- The opcode alone selects the row; the row's reserved field and operands are then read off the word. -/
theorem decode_encode (i : Instr) : decode (encode i) = .ok i := by
  cases i with
  | nop | start | clr => rfl
  | setw d =>
    have hd := d.isLt
    have hop : (opcodeOf (encode (.setw d))).toNat = 1 := by rw [opcodeOf_toNat, encode_setw_toNat]; omega
    simp only [decode, hop, unlessReserved_field_ok_iff, Instr.setw.injEq, field_eq_iff, dimOf, encode_setw_toNat]
    omega
  | seth d =>
    have hd := d.isLt
    have hop : (opcodeOf (encode (.seth d))).toNat = 2 := by rw [opcodeOf_toNat, encode_seth_toNat]; omega
    simp only [decode, hop, unlessReserved_field_ok_iff, Instr.seth.injEq, field_eq_iff, dimOf, encode_seth_toNat]
    omega
  | pix r g b =>
    have hr := r.isLt; have hg := g.isLt; have hb := b.isLt
    have hop : (opcodeOf (encode (.pix r g b))).toNat = 4 := by rw [opcodeOf_toNat, encode_pix_toNat]; omega
    simp only [decode, hop, unlessReserved_field_ok_iff, Instr.pix.injEq, field_eq_iff, redOf, greenOf, blueOf,
      encode_pix_toNat]
    omega
  | qry r g b =>
    have hr := r.isLt; have hg := g.isLt; have hb := b.isLt
    have hop : (opcodeOf (encode (.qry r g b))).toNat = 5 := by rw [opcodeOf_toNat, encode_qry_toNat]; omega
    simp only [decode, hop, unlessReserved_field_ok_iff, Instr.qry.injEq, field_eq_iff, redOf, greenOf, blueOf,
      encode_qry_toNat]
    omega
  | palrd idx =>
    have hi := idx.isLt
    have hop : (opcodeOf (encode (.palrd idx))).toNat = 6 := by rw [opcodeOf_toNat, encode_palrd_toNat]; omega
    simp only [decode, hop, unlessReserved_field_ok_iff, Instr.palrd.injEq, field_eq_iff, idxOf, encode_palrd_toNat]
    omega
  | rdreg reg => cases reg <;> rfl

/-- The number of the register a word names is its low three bits (R98). -/
theorem regOf_num (w : Word32) : (regOf w).num = w.extractLsb' 0 3 := num_regOfNum _

/-- The words of the three commands without operands, as numbers (R94). -/
theorem encode_formatN_toNat :
    (encode .nop).toNat = 0 ∧ (encode .start).toNat = 0x30000000 ∧ (encode .clr).toNat = 0x80000000 := by decide

/-- Under the opcode and the zero reserved field that decoding has checked, the operands are the rest of the word. -/
theorem encode_of_decode_ok {w : Word32} {i : Instr} (h : decode w = .ok i) : encode i = w := by
  obtain ⟨hnop, hstart, hclr⟩ := encode_formatN_toNat
  apply BitVec.eq_of_toNat_eq
  unfold decode at h
  split at h
  case h_10 => cases h
  all_goals
    rename_i hop
    rw [opcodeOf_toNat] at hop
    obtain ⟨hres, rfl⟩ := (unlessReserved_field_ok_iff _ _ _ _ _).1 h
  case h_1 | h_4 | h_9 => omega
  case h_2 => rw [encode_setw_toNat, dimOf, field_toNat]; omega
  case h_3 => rw [encode_seth_toNat, dimOf, field_toNat]; omega
  case h_5 => rw [encode_pix_toNat, redOf, greenOf, blueOf]; simp only [field_toNat]; omega
  case h_6 => rw [encode_qry_toNat, redOf, greenOf, blueOf]; simp only [field_toNat]; omega
  case h_7 => rw [encode_palrd_toNat, idxOf, field_toNat]; omega
  case h_8 => rw [encode_rdreg_toNat, regOf_num, field_toNat]; omega

end Sys2Proof
end

section
/-! PROOFS. When a step is enabled (R43): the room a command needs, and `step` as one equation. -/

namespace Sys2Proof.Machine

/-- The rule of the word pushes a byte exactly for a beat of an open run that completes one (R43). -/
theorem wordPushesOut_iff (w : Word32) (s : State) :
    wordPushesOut w s = true ↔
      (∃ r g b, decode w = .ok (.pix r g b)) ∧ s.seq = .run ∧ s.beatPushes = true := by
  unfold wordPushesOut pixelOf
  cases hdec : decode w with
  | error e => simp
  | ok i => cases i <;> simp [pixelOfCommand, pixPushes, State.busy]

/-- The rule of the word pushes a response exactly for the three reads (R43, R101). -/
theorem wordPushesRsp_iff (w : Word32) :
    wordPushesRsp w = true ↔
      (∃ r g b, decode w = .ok (.qry r g b)) ∨ (∃ i, decode w = .ok (.palrd i)) ∨
        ∃ n, decode w = .ok (.rdreg n) := by
  unfold wordPushesRsp
  cases hdec : decode w with
  | error e => simp
  | ok i => cases i <;> simp [answers]

/-- The condition of R43 on the channels' lengths. -/
theorem State.enabled_cons_iff {s : State} {w : Word32} {rest : List Word32} (hcmd : s.cmd = w :: rest) :
    s.enabled = true ↔
      (wordPushesOut w s = true → s.out.length < Config.outDepth) ∧
      (wordPushesRsp w = true → s.rsp.length < Config.rspDepth) := by
  simp only [State.enabled, State.fetch_of_cmd_cons hcmd, ← State.outHasRoom_iff, ← State.rspHasRoom_iff]
  cases wordPushesOut w s <;> cases wordPushesRsp w <;> simp

/-- A block without a command is not enabled. -/
theorem State.enabled_of_cmd_nil {s : State} (hcmd : s.cmd = []) : s.enabled = false := by
  simp only [State.enabled, State.fetch_of_cmd_nil hcmd]

/-- Whether the channels a command pushes to have room: the condition of `State.enabled` on a decoded command. -/
def commandRoom (i : Instr) (s : State) : Bool :=
  (!((pixelOfCommand i).isSome && pixPushes s) || s.outHasRoom) && (!answers i || s.rspHasRoom)

/-- A command's meaning is its rule, held while a channel it pushes to is full (R43). -/
theorem exec_eq_whenRoom (i : Instr) (s : State) : exec i s = whenRoom (commandRoom i s) (ruleOf i s) s := by
  cases i with
  | nop | setw | seth | start | clr => rfl
  | pix r g b => simp [commandRoom, pixelOfCommand, answers, exec, execPix, ruleOf]
  | qry r g b => simp [commandRoom, pixelOfCommand, answers, exec, execQry, ruleOf]
  | palrd idx => simp [commandRoom, pixelOfCommand, answers, exec, execPalrd, ruleOf]
  | rdreg reg => simp [commandRoom, pixelOfCommand, answers, exec, execRdreg, ruleOf]

theorem State.enabled_of_decode_ok {s : State} {w : Word32} {rest : List Word32} {i : Instr}
    (hcmd : s.cmd = w :: rest) (hdec : decode w = .ok i) : s.enabled = commandRoom i s := by
  simp only [State.enabled, State.fetch_of_cmd_cons hcmd, commandRoom, wordPushesOut, wordPushesRsp, pixelOf, hdec]
  cases pixelOfCommand i <;> simp

/-- An illegal word pushes nothing, so it is never held (R43, R99). -/
theorem State.enabled_of_decode_error {s : State} {w : Word32} {rest : List Word32} {e : IllegalWord}
    (hcmd : s.cmd = w :: rest) (hdec : decode w = .error e) : s.enabled = true := by
  simp only [State.enabled, State.fetch_of_cmd_cons hcmd, wordPushesOut, wordPushesRsp, pixelOf, hdec]
  simp

theorem unheldStep_of_cmd_nil {s : State} (hcmd : s.cmd = []) : unheldStep s = s := by
  simp only [unheldStep, State.fetch_of_cmd_nil hcmd]

theorem unheldStep_of_cmd_cons {s : State} {w : Word32} {rest : List Word32} (hcmd : s.cmd = w :: rest) :
    unheldStep s = wordRule w s := by
  simp only [unheldStep, State.fetch_of_cmd_cons hcmd]

theorem wordRule_of_decode_ok {w : Word32} {i : Instr} (hdec : decode w = .ok i) (s : State) :
    wordRule w s = ruleOf i s := by
  simp only [wordRule, hdec]

theorem wordRule_of_decode_error {w : Word32} {e : IllegalWord} (hdec : decode w = .error e) (s : State) :
    wordRule w s = s.illegalWord w := by
  simp only [wordRule, hdec]

/-- The step as one equation: the unheld step when enabled, nothing otherwise (R10, R43). -/
theorem step_eq (s : State) : step s = .next (if s.enabled then unheldStep s else s) := by
  cases hcmd : s.cmd with
  | nil => rw [step_of_cmd_nil hcmd, State.enabled_of_cmd_nil hcmd]; rfl
  | cons w rest =>
    rw [unheldStep_of_cmd_cons hcmd]
    cases hdec : decode w with
    | error e =>
      rw [step_of_decode_error hcmd hdec, State.enabled_of_decode_error hcmd hdec, wordRule_of_decode_error hdec]; rfl
    | ok i =>
      rw [step_of_decode_ok hcmd hdec, State.enabled_of_decode_ok hcmd hdec, wordRule_of_decode_ok hdec,
        exec_eq_whenRoom]; rfl

theorem step_of_enabled {s : State} (hen : s.enabled = true) : step s = .next (unheldStep s) := by
  rw [step_eq, if_pos hen]

theorem step_of_not_enabled {s : State} (hen : s.enabled = false) : step s = .next s := by
  rw [step_eq, hen]; rfl

end Sys2Proof.Machine
end

section
/-! PROOFS. What a beat leaves unchanged (R175), and all that one step can do: the inversion of `step`, from which the
invariants and the frames of this part are derived. -/

namespace Sys2Proof.Machine

/-- The frame of a beat: WIDTH, HEIGHT, ODDW, CAUSE, FCMD, CMD and RSP keep their contents (R175). -/
theorem State.beat_frame (i : PalIndex) (s : State) :
    s.beat i = { s with
      out := (s.beat i).out, bytecnt := (s.beat i).bytecnt, hold := (s.beat i).hold, xpos := (s.beat i).xpos,
      ypos := (s.beat i).ypos, seq := (s.beat i).seq, done := (s.beat i).done } := by
  obtain h | ⟨h, hc⟩ | ⟨hc, hr⟩ | ⟨hc, hr⟩ := s.beat_kind
  · rw [State.beat_hold i h]
  · rw [State.beat_nextColumn i h hc]
  · rw [State.beat_nextRow i hc hr]
  · rw [State.beat_endOfRun i hc hr]

@[simp] theorem State.beat_width (i : PalIndex) (s : State) : (s.beat i).width = s.width := by
  rw [s.beat_frame i]
@[simp] theorem State.beat_height (i : PalIndex) (s : State) : (s.beat i).height = s.height := by
  rw [s.beat_frame i]
@[simp] theorem State.beat_oddw (i : PalIndex) (s : State) : (s.beat i).oddw = s.oddw := by
  rw [s.beat_frame i]
@[simp] theorem State.beat_cause (i : PalIndex) (s : State) : (s.beat i).cause = s.cause := by
  rw [s.beat_frame i]
@[simp] theorem State.beat_fcmd (i : PalIndex) (s : State) : (s.beat i).fcmd = s.fcmd := by
  rw [s.beat_frame i]
@[simp] theorem State.beat_cmd (i : PalIndex) (s : State) : (s.beat i).cmd = s.cmd := by
  rw [s.beat_frame i]
@[simp] theorem State.beat_rsp (i : PalIndex) (s : State) : (s.beat i).rsp = s.rsp := by
  rw [s.beat_frame i]

/-- A beat changes STATE and DONE together, and only where it ends the run (R33, R175). -/
theorem State.beat_seq_done (i : PalIndex) (s : State) :
    (s.beat i).seq = (if s.lastColumn && s.lastRow then .idle else s.seq) ∧
    (s.beat i).done = (s.lastColumn && s.lastRow || s.done) := by
  obtain h | ⟨h, hc⟩ | ⟨hc, hr⟩ | ⟨hc, hr⟩ := s.beat_kind
  · obtain ⟨-, hc⟩ : s.rightPixel = false ∧ s.lastColumn = false := by simpa [State.beatPushes] using h
    rw [State.beat_hold i h, hc]; exact ⟨rfl, rfl⟩
  · rw [State.beat_nextColumn i h hc, hc]; exact ⟨rfl, rfl⟩
  · rw [State.beat_nextRow i hc hr, hc, hr]; exact ⟨rfl, rfl⟩
  · rw [State.beat_endOfRun i hc hr, hc, hr]; exact ⟨rfl, rfl⟩

theorem State.beat_seq (i : PalIndex) (s : State) :
    (s.beat i).seq = if s.lastColumn && s.lastRow then .idle else s.seq := (s.beat_seq_done i).1

theorem State.beat_done (i : PalIndex) (s : State) : (s.beat i).done = (s.lastColumn && s.lastRow || s.done) :=
  (s.beat_seq_done i).2

/-- A beat pushes its byte or none (R43, R175). -/
theorem State.beat_out (i : PalIndex) (s : State) :
    (s.beat i).out = s.out ++ if s.beatPushes then [s.beatByte i] else [] := by
  cases h : s.beatPushes with
  | false => simp [State.beat_hold i h]
  | true =>
    obtain h' | ⟨-, hc⟩ | ⟨hc, hr⟩ | ⟨hc, hr⟩ := s.beat_kind
    · simp [h] at h'
    · simp [State.beat_nextColumn i h hc]
    · simp [State.beat_nextRow i hc hr]
    · simp [State.beat_endOfRun i hc hr]

/-- All that an enabled step on the head word can do, by the operation that makes its next state, with the conditions
under which it does it (R10, R43, R226, and the rule of each command). -/
inductive StepEffect (s : State) : Word32 → State → Prop where
  /-- NOP, or a word discarded in FAULT (R201, R228). -/
  | discard {w : Word32} (hwhy : s.seq = .fault ∨ w = encode .nop) : StepEffect s w s.popCmd
  /-- A fault of the table of R221. -/
  | fault {w : Word32} {c : Cause} (hseq : s.seq ≠ .fault) (hrecord : faultRecord c w) :
      StepEffect s w (s.takeFault c w)
  /-- An accepted SETW (R171). -/
  | setWidth (d : Dim) (hidle : s.seq = .idle) : StepEffect s (encode (.setw d)) { s.popCmd with width := d }
  /-- An accepted SETH (R172). -/
  | setHeight (d : Dim) (hidle : s.seq = .idle) : StepEffect s (encode (.seth d)) { s.popCmd with height := d }
  /-- An accepted START (R173). -/
  | openRun (hidle : s.seq = .idle) (hdim : s.badDimension = false) : StepEffect s (encode .start) s.popCmd.openRun
  /-- A beat of an open run (R175). -/
  | beat (r g b : Comp) (hrun : s.seq = .run) (hroom : s.beatPushes = true → s.out.length < Config.outDepth) :
      StepEffect s (encode (.pix r g b)) (s.popCmd.beat (nearest ⟨r, g, b⟩))
  /-- A read answered (R144, R145, R202). -/
  | respond {i : Instr} {v : Word32} (hv : responseOf i s = some v) (hroom : s.rsp.length < Config.rspDepth) :
      StepEffect s (encode i) (s.popCmd.pushRsp v)
  /-- CLR (R204). -/
  | clear : StepEffect s (encode .clr) s.popCmd.clearSequencer

/-- The rule of a command whose channels have room has one of these effects. -/
theorem stepEffect_ruleOf (i : Instr) {s : State} (hroom : commandRoom i s = true) :
    StepEffect s (encode i) (ruleOf i s) := by
  cases i with
  | nop => exact .discard (.inr rfl)
  | setw d =>
    cases hseq : s.seq <;> simp only [ruleOf, ruleSetw, hseq]
    · exact .setWidth d hseq
    · exact .fault (by simp [hseq]) (.inl ⟨d, decode_encode _⟩)
    · exact .discard (.inl hseq)
  | seth d =>
    cases hseq : s.seq <;> simp only [ruleOf, ruleSeth, hseq]
    · exact .setHeight d hseq
    · exact .fault (by simp [hseq]) (.inr (.inl ⟨d, decode_encode _⟩))
    · exact .discard (.inl hseq)
  | start =>
    cases hseq : s.seq <;> simp only [ruleOf, ruleStart, hseq]
    · cases hdim : s.badDimension
      · exact .openRun hseq hdim
      · exact .fault (by simp [hseq]) (decode_encode _)
    · exact .fault (by simp [hseq]) (.inr (.inr (decode_encode _)))
    · exact .discard (.inl hseq)
  | pix r g b =>
    cases hseq : s.seq <;> simp only [ruleOf, rulePix, hseq]
    · exact .fault (by simp [hseq]) ⟨r, g, b, decode_encode _⟩
    · refine .beat r g b hseq fun hpush => ?_
      rw [← State.outHasRoom_iff]
      simpa [commandRoom, pixelOfCommand, answers, pixPushes, State.busy, hseq, hpush] using hroom
    · exact .discard (.inl hseq)
  | qry r g b | palrd idx | rdreg reg =>
    exact .respond rfl ((State.rspHasRoom_iff s).1 (by simpa [commandRoom, pixelOfCommand, answers] using hroom))
  | clr => exact .clear

/-- The rule of an enabled head word has one of these effects. -/
theorem stepEffect_wordRule {s : State} {w : Word32} {rest : List Word32} (hcmd : s.cmd = w :: rest)
    (hen : s.enabled = true) : StepEffect s w (wordRule w s) := by
  cases hdec : decode w with
  | error e =>
    rw [wordRule_of_decode_error hdec]
    obtain ⟨hfault, hpop⟩ | ⟨hne, htake⟩ := State.illegalWord_cases w s
    · rw [hpop]; exact .discard (.inl hfault)
    · rw [htake]; exact .fault hne ⟨e, hdec⟩
  | ok i =>
    rw [State.enabled_of_decode_ok hcmd hdec] at hen
    rw [wordRule_of_decode_ok hdec, ← encode_of_decode_ok hdec]
    exact stepEffect_ruleOf i hen

/-- All that a step can do: nothing, or one effect of the head word. -/
theorem step_cases {s t : State} (h : step s = .next t) :
    t = s ∨ ∃ w rest, s.cmd = w :: rest ∧ StepEffect s w t := by
  cases hen : s.enabled with
  | false =>
    rw [step_of_not_enabled hen] at h; cases h
    exact .inl rfl
  | true =>
    rw [step_of_enabled hen] at h; cases h
    cases hcmd : s.cmd with
    | nil => rw [unheldStep_of_cmd_nil hcmd]; exact .inl rfl
    | cons w rest => rw [unheldStep_of_cmd_cons hcmd]; exact .inr ⟨w, rest, rfl, stepEffect_wordRule hcmd hen⟩

/-- Every effect removes the head word and nothing else from CMD (R10, R41). -/
theorem StepEffect.cmd_eq {s t : State} {w : Word32} (h : StepEffect s w t) : t.cmd = s.cmd.tail := by
  cases h <;> simp

end Sys2Proof.Machine
end

section
/-! PROOFS. The counting of R25: how many bytes a grid has, and that BYTECNT of an open run stays below that. -/

namespace Sys2Proof.Machine

/-- No grid has more bytes than the largest one (R25). -/
theorem gridBytes_le_maxBytes (h w : Dim) : h.toNat * rowBytes w.toNat ≤ maxBytes := by
  have hh : h.toNat ≤ 65535 := by have := h.isLt; omega
  have hw : rowBytes w.toNat ≤ 32768 := by have := w.isLt; unfold rowBytes; omega
  exact Nat.mul_le_mul hh hw

/-- A count below the bytes of its grid does not overflow BYTECNT (R25). -/
theorem bytecnt_succ_toNat {c : Word32} {h w : Dim} (hc : c.toNat < h.toNat * rowBytes w.toNat) :
    (c + 1).toNat = c.toNat + 1 := by
  have hmax := gridBytes_le_maxBytes h w
  rw [maxBytes] at hmax
  bv_omega

/-- A position below a register's value can be counted up without overflow (R36 (a)). -/
theorem position_succ_toNat {x w : Dim} (h : x.toNat < w.toNat) : (x + 1).toNat = x.toNat + 1 := by
  have hw := w.isLt
  bv_omega

/-- An open run has bytes of its grid still to push (R36 (b)). -/
theorem runInv.bytecnt_lt {s : State} (h : runInv s) : s.bytecnt.toNat < s.height.toNat * rowBytes s.width.toNat := by
  obtain ⟨-, -, hx, hy, -, -, -, -, hcount, -⟩ := h
  have hrow : s.xpos.toNat / 2 < rowBytes s.width.toNat := by unfold rowBytes; omega
  calc s.bytecnt.toNat < s.ypos.toNat * rowBytes s.width.toNat + rowBytes s.width.toNat := by omega
    _ = (s.ypos.toNat + 1) * rowBytes s.width.toNat := (Nat.succ_mul _ _).symm
    _ ≤ s.height.toNat * rowBytes s.width.toNat := Nat.mul_le_mul_right _ hy

/-- The beat that ends a run has pushed every byte of the grid (R25, R33). -/
theorem runInv.bytecnt_endOfRun {s : State} (h : runInv s) (hc : s.lastColumn = true) (hr : s.lastRow = true) :
    (s.bytecnt + 1).toNat = s.height.toNat * rowBytes s.width.toNat := by
  have hsucc := bytecnt_succ_toNat h.bytecnt_lt
  obtain ⟨-, -, hx, hy, -, -, -, -, hcount, -⟩ := h
  rw [State.lastColumn_iff] at hc
  rw [State.lastRow_iff] at hr
  have hheight : s.height.toNat = s.ypos.toNat + 1 := by omega
  have hrow : s.xpos.toNat / 2 + 1 = rowBytes s.width.toNat := by unfold rowBytes; omega
  rw [hheight, Nat.succ_mul]; omega

end Sys2Proof.Machine
end

section
/-! PROOFS. The invariant of R36 through each kind of step. -/

namespace Sys2Proof.Machine

/-- The invariant speaks of no channel. -/
theorem blockInv_channels (s : State) (c : List Word32) (o : List Byte) (r : List Word32) :
    blockInv { s with cmd := c, out := o, rsp := r } ↔ blockInv s := Iff.rfl

theorem blockInv_of_idle {s : State} (hseq : s.seq = .idle) : blockInv s ↔ idleInv s := by
  simp only [blockInv, hseq]

theorem blockInv_of_run {s : State} (hseq : s.seq = .run) : blockInv s ↔ runInv s := by
  simp only [blockInv, hseq]

theorem blockInv_of_fault {s : State} (hseq : s.seq = .fault) : blockInv s ↔ faultInv s := by
  simp only [blockInv, hseq]

/-- In IDLE the invariant leaves the dimensions free, so SETW and SETH may write any value (R171, R172). -/
theorem blockInv_dimensions {s : State} (hidle : s.seq = .idle) (w h : Dim) :
    blockInv { s with width := w, height := h } ↔ blockInv s := by
  rw [blockInv_of_idle hidle, blockInv_of_idle (s := { s with width := w, height := h }) hidle]; rfl

/-- The fault entry freezes a position and a count that are within their bounds (R36 (f), R203). -/
theorem blockInv_takeFault {s : State} (hinv : blockInv s) (hseq : s.seq ≠ .fault) {c : Cause} {w : Word32}
    (hrecord : faultRecord c w) : blockInv (s.takeFault c w) := by
  suffices hbounds : (s.xpos = 0 ∨ s.xpos.toNat < s.width.toNat) ∧ (s.ypos = 0 ∨ s.ypos.toNat < s.height.toNat) ∧
      s.bytecnt.toNat ≤ maxBytes from ⟨hrecord, hbounds⟩
  cases hs : s.seq with
  | fault => exact absurd hs hseq
  | idle =>
    obtain ⟨hx, hy, -, -, -, -, hcount⟩ := (blockInv_of_idle hs).1 hinv
    exact ⟨.inl hx, .inl hy, hcount⟩
  | run =>
    have hrun := (blockInv_of_run hs).1 hinv
    have hcount := hrun.bytecnt_lt.le.trans (gridBytes_le_maxBytes s.height s.width)
    obtain ⟨-, -, hx, hy, -⟩ := hrun
    exact ⟨.inr hx, .inr hy, hcount⟩

/-- An accepted START opens a run at its first position (R173). -/
theorem runInv_openRun {s : State} (hinv : idleInv s) (hdim : s.badDimension = false) : runInv s.openRun := by
  obtain ⟨-, -, -, hcause, hfcmd, -, -⟩ := hinv
  obtain ⟨hw, hh⟩ : 0 < s.width.toNat ∧ 0 < s.height.toNat := by
    simpa [State.badDimension, ← BitVec.toNat_inj, Nat.pos_iff_ne_zero] using hdim
  exact ⟨hw, hh, hw, hh, rfl, rfl, hcause, hfcmd, by simp, fun _ => rfl⟩

/-- A beat that fills HOLD stands at an even column before the last (R36 (b), (c)). -/
theorem runInv_beat_hold {s : State} (hinv : runInv s) (i : PalIndex) (h : s.beatPushes = false) :
    runInv (s.beat i) := by
  obtain ⟨hw, hh, hx, hy, hdone, hodd, hcause, hfcmd, hcount, -⟩ := hinv
  have hxsucc := position_succ_toNat hx
  obtain ⟨heven, hlast⟩ : ¬s.xpos.toNat % 2 = 1 ∧ ¬s.xpos.toNat + 1 = s.width.toNat := by
    simpa [State.beatPushes_iff] using Bool.eq_false_iff.1 h
  rw [State.beat_hold i h]
  refine ⟨hw, hh, ?_, hy, hdone, hodd, hcause, hfcmd, ?_, ?_⟩ <;> simp only [hxsucc] <;> omega

/-- A beat that pushes before the last column stands at an odd column (R36 (b)). -/
theorem runInv_beat_nextColumn {s : State} (hinv : runInv s) (i : PalIndex) (h : s.beatPushes = true)
    (hc : s.lastColumn = false) : runInv (s.beat i) := by
  have hbytes := bytecnt_succ_toNat hinv.bytecnt_lt
  obtain ⟨hw, hh, hx, hy, hdone, hodd, hcause, hfcmd, hcount, -⟩ := hinv
  have hxsucc := position_succ_toNat hx
  have hpush := State.beatPushes_iff s |>.1 h
  have hlast : ¬s.xpos.toNat + 1 = s.width.toNat := fun heq => by simp [(State.lastColumn_iff s).2 heq] at hc
  rw [State.beat_nextColumn i h hc]
  refine ⟨hw, hh, ?_, hy, hdone, hodd, hcause, hfcmd, ?_, fun _ => rfl⟩ <;> simp only [hxsucc, hbytes] <;> omega

/-- A beat in the last column has pushed `rowBytes` bytes in its row (R36 (b)). -/
theorem runInv_beat_nextRow {s : State} (hinv : runInv s) (i : PalIndex) (hc : s.lastColumn = true)
    (hr : s.lastRow = false) : runInv (s.beat i) := by
  have hbytes := bytecnt_succ_toNat hinv.bytecnt_lt
  obtain ⟨hw, hh, hx, hy, hdone, hodd, hcause, hfcmd, hcount, -⟩ := hinv
  have hysucc := position_succ_toNat hy
  have hlast := State.lastColumn_iff s |>.1 hc
  have hnext : ¬s.height.toNat ≤ s.ypos.toNat + 1 := fun hle => by simp [(State.lastRow_iff s).2 hle] at hr
  have hrow : s.xpos.toNat / 2 + 1 = rowBytes s.width.toNat := by unfold rowBytes; omega
  rw [State.beat_nextRow i hc hr]
  refine ⟨hw, hh, hw, ?_, hdone, hodd, hcause, hfcmd, ?_, fun _ => rfl⟩
  · simp only [hysucc]; omega
  · simp only [hysucc, hbytes, Nat.succ_mul, hcount, ← hrow]; simp [Nat.add_assoc]

/-- The last beat ends the run with the byte count of the whole grid (R36 (e)). -/
theorem idleInv_beat_endOfRun {s : State} (hinv : runInv s) (i : PalIndex) (hc : s.lastColumn = true)
    (hr : s.lastRow = true) : idleInv (s.beat i) := by
  have hmax := gridBytes_le_maxBytes s.height s.width
  rw [← hinv.bytecnt_endOfRun hc hr] at hmax
  obtain ⟨-, -, -, -, -, -, hcause, hfcmd, -, -⟩ := hinv
  rw [State.beat_endOfRun i hc hr]
  exact ⟨rfl, rfl, rfl, hcause, hfcmd, fun _ => rfl, hmax⟩

/-- A beat of an open run leaves an open run, or ends it in IDLE (R175). -/
theorem blockInv_beat {s : State} (hseq : s.seq = .run) (hinv : runInv s) (i : PalIndex) : blockInv (s.beat i) := by
  cases hend : s.lastColumn && s.lastRow with
  | true =>
    obtain ⟨hc, hr⟩ := Bool.and_eq_true_iff.1 hend
    exact (blockInv_of_idle (by rw [State.beat_seq, hend, if_pos rfl])).2 (idleInv_beat_endOfRun hinv i hc hr)
  | false =>
    refine (blockInv_of_run (by rw [State.beat_seq, hend, hseq]; rfl)).2 ?_
    obtain h | ⟨h, hc⟩ | ⟨hc, hr⟩ | ⟨hc, hr⟩ := s.beat_kind
    · exact runInv_beat_hold hinv i h
    · exact runInv_beat_nextColumn hinv i h hc
    · exact runInv_beat_nextRow hinv i hc hr
    · simp [hc, hr] at hend

/-- Every effect of a step keeps the invariant (R36). -/
theorem StepEffect.keeps_blockInv {s t : State} {w : Word32} (heff : StepEffect s w t) (hinv : blockInv s) :
    blockInv t := by
  cases heff with
  | discard | respond => exact hinv
  | fault hseq hrecord => exact blockInv_takeFault hinv hseq hrecord
  | setWidth d hidle => exact (blockInv_dimensions hidle d s.height).2 hinv
  | setHeight d hidle => exact (blockInv_dimensions hidle s.width d).2 hinv
  | openRun hidle hdim =>
    exact (blockInv_of_run rfl).2 (runInv_openRun (s := s.popCmd) ((blockInv_of_idle hidle).1 hinv) hdim)
  | beat r g b hrun => exact blockInv_beat (s := s.popCmd) hrun ((blockInv_of_run hrun).1 hinv) _
  | clear => exact (blockInv_of_idle rfl).2 ⟨rfl, rfl, rfl, rfl, rfl, nofun, by simp⟩

/-- Settles O44: `step_cases`, and each effect keeps the invariant. -/
theorem stepKeepsInvariant : Obligations.StepKeepsInvariant := by
  intro s t hinv h
  obtain rfl | ⟨w, rest, -, heff⟩ := step_cases h
  · exact hinv
  · exact heff.keeps_blockInv hinv

end Sys2Proof.Machine
end

section
/-! PROOFS. What a step does to the channels, and when it happens (R41 to R43). -/

namespace Sys2Proof.Machine

/-- An effect leaves OUT as it is, or pushes one byte where there was room. -/
theorem StepEffect.out_cases {s t : State} {w : Word32} (heff : StepEffect s w t) :
    t.out = s.out ∨ ∃ b, t.out = s.out ++ [b] ∧ s.out.length < Config.outDepth := by
  cases heff with
  | discard | fault | setWidth | setHeight | openRun | respond | clear => exact .inl rfl
  | beat r g b hrun hroom =>
    rw [State.beat_out, State.popCmd_beatPushes]
    cases hpush : s.beatPushes with
    | false => exact .inl (by simp)
    | true => exact .inr ⟨_, rfl, hroom hpush⟩

/-- An effect leaves RSP as it is, or pushes one word where there was room. -/
theorem StepEffect.rsp_cases {s t : State} {w : Word32} (heff : StepEffect s w t) :
    t.rsp = s.rsp ∨ ∃ v, t.rsp = s.rsp ++ [v] ∧ s.rsp.length < Config.rspDepth := by
  cases heff with
  | discard | fault | setWidth | setHeight | openRun | clear => exact .inl rfl
  | beat => exact .inl (by simp)
  | respond hv hroom => exact .inr ⟨_, rfl, hroom⟩

/-- Settles O31: R43's condition read off `State.enabled`, and the two halves of `step_eq`. -/
theorem stepHappensExactlyWhenEnabled : Obligations.StepHappensExactlyWhenEnabled := by
  refine ⟨fun s => ?_, fun s hen => ⟨step_of_enabled hen, ?_⟩, fun s hen => step_of_not_enabled hen⟩
  · cases hcmd : s.cmd with
    | nil => simp [State.enabled_of_cmd_nil hcmd]
    | cons w rest =>
      rw [State.enabled_cons_iff hcmd, wordPushesOut_iff, wordPushesRsp_iff, State.beatPushes_iff]
      simp only [and_imp]
      constructor
      · rintro ⟨hout, hrsp⟩
        exact ⟨w, rest, rfl, hout, hrsp⟩
      · rintro ⟨w', rest', heq, hout, hrsp⟩
        obtain ⟨rfl, -⟩ := List.cons.inj heq
        exact ⟨hout, hrsp⟩
  · cases hcmd : s.cmd with
    | nil => rw [unheldStep_of_cmd_nil hcmd, hcmd]; rfl
    | cons w rest => rw [unheldStep_of_cmd_cons hcmd, (stepEffect_wordRule hcmd hen).cmd_eq, hcmd]

end Sys2Proof.Machine
end

section
/-! PROOFS. What each event at the block does (R266), and what it keeps. -/

namespace Sys2Proof.Machine

theorem Link.after_step {l l' : Link} (h : l.after .step = some l') :
    step l.block = .next l'.block ∧ l' = { l with block := l'.block } := by
  simp only [Link.after] at h
  split at h
  · rename_i t hstep
    cases h
    exact ⟨hstep, rfl⟩
  · cases h
  · cases h

theorem Link.after_append {l l' : Link} {w : Word32} (h : l.after (.append w) = some l') :
    l.block.cmd.length < Config.cmdDepth ∧
      l' = { l with block := { l.block with cmd := l.block.cmd ++ [w] } } := by
  simp only [Link.after] at h
  split at h
  · rename_i hroom
    cases h
    exact ⟨(State.cmdHasRoom_iff _).1 hroom, rfl⟩
  · cases h

theorem Link.after_takeOut {l l' : Link} (h : l.after .takeOut = some l') :
    ∃ b q, l.block.out = b :: q ∧
      l' = { l with block := { l.block with out := q }, gotOut := l.gotOut ++ [b] } := by
  simp only [Link.after] at h
  split at h
  · cases h
  · rename_i b q hout
    cases h
    exact ⟨b, q, hout, rfl⟩

theorem Link.after_takeRsp {l l' : Link} (h : l.after .takeRsp = some l') :
    ∃ v q, l.block.rsp = v :: q ∧
      l' = { l with block := { l.block with rsp := q }, gotRsp := l.gotRsp ++ [v] } := by
  simp only [Link.after] at h
  split at h
  · cases h
  · rename_i v q hrsp
    cases h
    exact ⟨v, q, hrsp, rfl⟩

theorem Link.after_reset {l l' : Link} (h : l.after .reset = some l') : l' = { l with block := State.reset } := by
  cases h; rfl

/-- An event keeps a property of the registers that holds at reset, if its step does: the host's acts touch the
channels only (R266). -/
theorem Link.after_keeps {P : State → Prop} (hreset : P State.reset)
    (hchannels : ∀ (s : State) (c : List Word32) (o : List Byte) (r : List Word32),
      P { s with cmd := c, out := o, rsp := r } ↔ P s)
    {e : Event} {l l' : Link} (hstep : e = .step → step l.block = .next l'.block → P l'.block)
    (hP : P l.block) (h : l.after e = some l') : P l'.block := by
  cases e with
  | step => exact hstep rfl (Link.after_step h).1
  | append w => rw [(Link.after_append h).2]; exact (hchannels ..).2 hP
  | takeOut => obtain ⟨b, q, -, rfl⟩ := Link.after_takeOut h; exact (hchannels ..).2 hP
  | takeRsp => obtain ⟨v, q, -, rfl⟩ := Link.after_takeRsp h; exact (hchannels ..).2 hP
  | reset => rw [Link.after_reset h]; exact hreset

/-- A schedule happens event by event. -/
theorem Link.run_cons_eq_some {e : Event} {es : List Event} {l l' : Link} :
    Link.run (e :: es) l = some l' ↔ ∃ m, l.after e = some m ∧ Link.run es m = some l' := by
  simp only [Link.run]
  cases l.after e <;> simp

/-- What every event keeps, every schedule keeps. -/
theorem Link.run_keeps {P : State → Prop}
    (hP : ∀ (e : Event) (l l' : Link), P l.block → l.after e = some l' → P l'.block) {es : List Event} {l l' : Link}
    (hl : P l.block) (h : Link.run es l = some l') : P l'.block := by
  induction es generalizing l with
  | nil => cases h; exact hl
  | cons e es ih =>
    obtain ⟨m, hm, hrun⟩ := Link.run_cons_eq_some.1 h
    exact ih (hP e l m hl hm) hrun

/-- What reset has and every event keeps holds of every state a host can bring about. -/
theorem Reachable.induct {P : State → Prop} (hreset : P State.reset)
    (hP : ∀ (e : Event) (l l' : Link), P l.block → l.after e = some l' → P l'.block) {s : State}
    (h : Reachable s) : P s := by
  obtain ⟨es, l, hrun, rfl⟩ := h
  exact Link.run_keeps hP hreset hrun

/-- Settles O32: `step_cases` with the channels of each effect, and the inversion of each act of the host. -/
theorem channelsAreQueues : Obligations.ChannelsAreQueues := by
  refine ⟨fun s t h => ?_, fun l l' w h => (Link.after_append h).2, fun l l' h => ?_, fun l l' h => ?_⟩
  · obtain rfl | ⟨w, rest, hcmd, heff⟩ := step_cases h
    · exact .inl rfl
    · obtain ⟨bs, hout, hbs⟩ : ∃ bs, t.out = s.out ++ bs ∧ bs.length ≤ 1 := by
        obtain hout | ⟨b, hout, -⟩ := heff.out_cases
        · exact ⟨[], by simpa using hout, by simp⟩
        · exact ⟨[b], hout, le_rfl⟩
      obtain ⟨vs, hrsp, hvs⟩ : ∃ vs, t.rsp = s.rsp ++ vs ∧ vs.length ≤ 1 := by
        obtain hrsp | ⟨v, hrsp, -⟩ := heff.rsp_cases
        · exact ⟨[], by simpa using hrsp, by simp⟩
        · exact ⟨[v], hrsp, le_rfl⟩
      have hhead : s.cmd = w :: t.cmd := by rw [heff.cmd_eq, hcmd, List.tail_cons]
      exact .inr ⟨w, bs, vs, hhead, hout, hrsp, hbs, hvs⟩
  · obtain ⟨b, q, hout, rfl⟩ := Link.after_takeOut h
    exact ⟨b, hout, rfl, rfl, rfl⟩
  · obtain ⟨v, q, hrsp, rfl⟩ := Link.after_takeRsp h
    exact ⟨v, hrsp, rfl, rfl, rfl⟩

end Sys2Proof.Machine
end

section
/-! PROOFS. The channels stay within their capacities, and the invariant along schedules (R36, R42). -/

namespace Sys2Proof.Machine

theorem blockInv_reset : blockInv State.reset :=
  (blockInv_of_idle rfl).2 ⟨rfl, rfl, rfl, rfl, rfl, nofun, Nat.zero_le _⟩

theorem channelsFit_reset : channelsFit State.reset := ⟨Nat.zero_le _, Nat.zero_le _, Nat.zero_le _⟩

/-- Settles O43: reset satisfies the clauses for IDLE, and its channels are empty. -/
theorem resetHasInvariant : Obligations.ResetHasInvariant := ⟨blockInv_reset, channelsFit_reset⟩

/-- A step pushes only where there is room, so it overfills nothing (R43). -/
theorem StepEffect.keeps_channelsFit {s t : State} {w : Word32} (heff : StepEffect s w t) (hfit : channelsFit s) :
    channelsFit t := by
  obtain ⟨hcmd, hout, hrsp⟩ := hfit
  refine ⟨?_, ?_, ?_⟩
  · rw [heff.cmd_eq, List.length_tail]; omega
  · obtain h | ⟨b, h, hroom⟩ := heff.out_cases <;> simp only [h, List.length_append, List.length_singleton] <;> omega
  · obtain h | ⟨v, h, hroom⟩ := heff.rsp_cases <;> simp only [h, List.length_append, List.length_singleton] <;> omega

/-- Settles O46: a step and an append push where there is room, the other events only remove. -/
theorem eventsKeepChannelsFitting : Obligations.EventsKeepChannelsFitting := by
  intro e l l' hfit h
  have ⟨hcmd, hout, hrsp⟩ := hfit
  cases e with
  | step =>
    obtain heq | ⟨w, rest, -, heff⟩ := step_cases (Link.after_step h).1
    · rw [heq]; exact hfit
    · exact heff.keeps_channelsFit hfit
  | append w =>
    obtain ⟨hroom, rfl⟩ := Link.after_append h
    exact ⟨by simpa using hroom, hout, hrsp⟩
  | takeOut =>
    obtain ⟨b, q, hq, rfl⟩ := Link.after_takeOut h
    rw [hq, List.length_cons] at hout
    exact ⟨hcmd, Nat.le_of_succ_le hout, hrsp⟩
  | takeRsp =>
    obtain ⟨v, q, hq, rfl⟩ := Link.after_takeRsp h
    rw [hq, List.length_cons] at hrsp
    exact ⟨hcmd, hout, Nat.le_of_succ_le hrsp⟩
  | reset => rw [Link.after_reset h]; exact channelsFit_reset

/-- Every event keeps the invariant. -/
theorem Link.after_keeps_blockInv (e : Event) (l l' : Link) (hinv : blockInv l.block) (h : l.after e = some l') :
    blockInv l'.block :=
  Link.after_keeps blockInv_reset blockInv_channels (fun _ hstep => stepKeepsInvariant _ _ hinv hstep) hinv h

/-- The invariant ties FAULT to a cause (R36 (f), R35). -/
theorem blockInv.fault_iff {s : State} (hinv : blockInv s) : s.seq = .fault ↔ s.cause ≠ .noFault := by
  cases hseq : s.seq with
  | idle =>
    obtain ⟨-, -, -, hcause, -⟩ := (blockInv_of_idle hseq).1 hinv
    simp [hcause]
  | run =>
    obtain ⟨-, -, -, -, -, -, hcause, -⟩ := (blockInv_of_run hseq).1 hinv
    simp [hcause]
  | fault =>
    obtain ⟨hrecord, -⟩ := (blockInv_of_fault hseq).1 hinv
    refine iff_of_true rfl fun hcause => ?_
    rw [hcause] at hrecord
    exact hrecord

/-- Settles O45: by induction on the schedule, every event keeping the invariant and the capacities. -/
theorem reachableStatesHaveInvariant : Obligations.ReachableStatesHaveInvariant := by
  intro s h
  have hinv := Reachable.induct blockInv_reset Link.after_keeps_blockInv h
  have hfit := Reachable.induct channelsFit_reset eventsKeepChannelsFitting h
  exact ⟨hinv, hfit, hinv.fault_iff⟩

end Sys2Proof.Machine
end

section
/-! PROOFS. Which step changes the dimensions and the flag DONE (R22, R33). -/

namespace Sys2Proof.Machine

theorem StepEffect.width_changed {s t : State} {w : Word32} (heff : StepEffect s w t) (hne : t.width ≠ s.width) :
    s.seq = .idle ∧ w = encode (.setw t.width) := by
  cases heff with
  | setWidth d hidle => exact ⟨hidle, rfl⟩
  | discard | fault | setHeight | openRun | beat | respond | clear => simp at hne

theorem StepEffect.height_changed {s t : State} {w : Word32} (heff : StepEffect s w t) (hne : t.height ≠ s.height) :
    s.seq = .idle ∧ w = encode (.seth t.height) := by
  cases heff with
  | setHeight d hidle => exact ⟨hidle, rfl⟩
  | discard | fault | setWidth | openRun | beat | respond | clear => simp at hne

/-- Settles O35: of all effects only an accepted SETW or SETH writes the dimension. -/
theorem dimensionsChangeOnlyBySetting : Obligations.DimensionsChangeOnlyBySetting := by
  intro s t h
  obtain rfl | ⟨w, rest, hcmd, heff⟩ := step_cases h
  · exact ⟨fun hne => absurd rfl hne, fun hne => absurd rfl hne⟩
  · refine ⟨fun hne => ?_, fun hne => ?_⟩
    · obtain ⟨hidle, rfl⟩ := heff.width_changed hne
      exact ⟨hidle, rest, hcmd⟩
    · obtain ⟨hidle, rfl⟩ := heff.height_changed hne
      exact ⟨hidle, rest, hcmd⟩

/-- DONE is set only by the beat that ends the run (R33). -/
theorem StepEffect.done_set {s t : State} {w : Word32} (heff : StepEffect s w t) (hs : s.done = false)
    (ht : t.done = true) : ∃ r g b, w = encode (.pix r g b) ∧ s.seq = .run ∧
      s.lastColumn = true ∧ s.lastRow = true ∧ t = s.popCmd.beat (nearest ⟨r, g, b⟩) := by
  cases heff with
  | beat r g b hrun =>
    obtain ⟨hc, hr⟩ : s.lastColumn = true ∧ s.lastRow = true := by simpa [State.beat_done, hs] using ht
    exact ⟨r, g, b, rfl, hrun, hc, hr, rfl⟩
  | discard | fault | setWidth | setHeight | openRun | respond | clear => simp [hs] at ht

/-- DONE is cleared only by CLR or an accepted START (R33). -/
theorem StepEffect.done_cleared {s t : State} {w : Word32} (heff : StepEffect s w t) (hs : s.done = true)
    (ht : t.done = false) : w = encode .clr ∨ (w = encode .start ∧ s.seq = .idle ∧ t.seq = .run) := by
  cases heff with
  | clear => exact .inl rfl
  | openRun hidle => exact .inr ⟨rfl, hidle, rfl⟩
  | beat => simp [State.beat_done, hs] at ht
  | discard | fault | setWidth | setHeight | respond => simp [hs] at ht

/-- Entering FAULT leaves DONE (R33, R226). -/
theorem StepEffect.done_of_enters_fault {s t : State} {w : Word32} (heff : StepEffect s w t) (hs : s.seq ≠ .fault)
    (ht : t.seq = .fault) : t.done = s.done := by
  cases heff with
  | fault => rfl
  | discard | setWidth | setHeight | respond => exact absurd ht hs
  | openRun | clear => cases ht
  | beat r g b hrun => rw [State.beat_seq, State.popCmd_seq, hrun] at ht; split at ht <;> cases ht

/-- Settles O37: the effects that set, clear and keep DONE, and the count of R25 at the end of a run. -/
theorem doneFlagRule : Obligations.DoneFlagRule := by
  intro s t h
  obtain rfl | ⟨w, rest, hcmd, heff⟩ := step_cases h
  · exact ⟨fun hs ht => by simp [hs] at ht, fun hs ht => by simp [hs] at ht, fun _ _ => rfl, rfl⟩
  refine ⟨fun hs ht => ?_, fun hs ht => ?_, heff.done_of_enters_fault, rfl⟩
  · obtain ⟨r, g, b, rfl, hrun, hc, hr, rfl⟩ := heff.done_set hs ht
    refine ⟨⟨r, g, b, rest, hcmd⟩, hrun, ?_, (State.lastColumn_iff s).1 hc, (State.lastRow_iff s).1 hr, ?_, ?_⟩
    · simp [State.beat_seq, hc, hr]
    · simp [State.beat_out, State.beatPushes, hc]
    · intro hinv
      rw [State.beat_endOfRun (s := s.popCmd) _ hc hr]
      exact ((blockInv_of_run hrun).1 hinv).bytecnt_endOfRun hc hr
  · obtain rfl | ⟨rfl, hidle, hrun⟩ := heff.done_cleared hs ht
    · exact .inl ⟨rest, hcmd⟩
    · exact .inr ⟨⟨rest, hcmd⟩, hidle, hrun⟩

end Sys2Proof.Machine
end

section
/-! PROOFS. The byte count of a finished run, while no SETW or SETH is accepted (R36 (e)). -/

namespace Sys2Proof.Machine

/-- The clause speaks of no channel. -/
theorem doneCount_channels (s : State) (c : List Word32) (o : List Byte) (r : List Word32) :
    doneCount { s with cmd := c, out := o, rsp := r } ↔ doneCount s := Iff.rfl

theorem doneCount_of_not_done {s : State} (h : s.done = false) : doneCount s :=
  fun _ hdone => absurd hdone (by simp [h])

theorem doneCount_of_not_idle {s : State} (h : s.seq ≠ .idle) : doneCount s := fun hidle => absurd hidle h

/-- Only the beat that ends a run reaches IDLE with DONE set, and only an accepted SETW or SETH moves the grid under a
finished one. -/
theorem StepEffect.keeps_doneCount {s t : State} {w : Word32} {rest : List Word32} (heff : StepEffect s w t)
    (hcmd : s.cmd = w :: rest) (hinv : blockInv s) (hset : ¬takesSetting s) (hcount : doneCount s) :
    doneCount t := by
  cases heff with
  | discard | respond => exact hcount
  | fault => exact doneCount_of_not_idle nofun
  | setWidth d hidle => exact absurd ⟨hidle, d, rest, .inl hcmd⟩ hset
  | setHeight d hidle => exact absurd ⟨hidle, d, rest, .inr hcmd⟩ hset
  | openRun => exact doneCount_of_not_idle nofun
  | clear => exact doneCount_of_not_done rfl
  | beat r g b hrun =>
    cases hend : s.lastColumn && s.lastRow with
    | false => exact doneCount_of_not_idle (by simp [State.beat_seq, hend, hrun])
    | true =>
      obtain ⟨hc, hr⟩ := Bool.and_eq_true_iff.1 hend
      intro _ _
      rw [State.beat_endOfRun (s := s.popCmd) _ hc hr]
      exact ((blockInv_of_run hrun).1 hinv).bytecnt_endOfRun hc hr

theorem step_keeps_doneCount {s t : State} (hinv : blockInv s) (hcount : doneCount s) (hset : ¬takesSetting s)
    (h : step s = .next t) : doneCount t := by
  obtain rfl | ⟨w, rest, hcmd, heff⟩ := step_cases h
  · exact hcount
  · exact heff.keeps_doneCount hcmd hinv hset hcount

/-- The proviso of a schedule is that of its first event and of the rest. -/
theorem noSettingTaken_cons {e : Event} {es : List Event} {l m : Link} (hm : l.after e = some m) :
    noSettingTaken (e :: es) l ↔ (e = .step → ¬takesSetting l.block) ∧ noSettingTaken es m := by
  simp only [noSettingTaken, hm]

/-- Along a schedule, beside the invariant. -/
theorem Link.run_keeps_doneCount {es : List Event} {l l' : Link} (hinv : blockInv l.block)
    (hcount : doneCount l.block) (hset : noSettingTaken es l) (h : Link.run es l = some l') : doneCount l'.block := by
  induction es generalizing l with
  | nil => cases h; exact hcount
  | cons e es ih =>
    obtain ⟨m, hm, hrun⟩ := Link.run_cons_eq_some.1 h
    obtain ⟨hfirst, hrest⟩ := (noSettingTaken_cons hm).1 hset
    have hstep : e = .step → step l.block = .next m.block → doneCount m.block :=
      fun he => step_keeps_doneCount hinv hcount (hfirst he)
    have hcount' := Link.after_keeps (doneCount_of_not_done rfl) doneCount_channels hstep hcount hm
    exact ih (Link.after_keeps_blockInv e l m hinv hm) hcount' hrest hrun

/-- Settles O47: reset has DONE 0, and the step lemma along a schedule. -/
theorem doneCountKept : Obligations.DoneCountKept :=
  ⟨doneCount_of_not_done rfl, fun _ => doneCount_of_not_done, fun _ _ => step_keeps_doneCount,
    fun _ _ _ => Link.run_keeps_doneCount⟩

end Sys2Proof.Machine
end

section
/-! PROOFS. ODDW steers nothing but the read of STATUS (R34): two states that differ in ODDW alone take the same
step. -/

namespace Sys2Proof.Machine

/-- The state with another value of the flag ODDW. -/
def State.withOddw (o : Bool) (s : State) : State := { s with oddw := o }

theorem State.withOddw_seq (o : Bool) (s : State) : (s.withOddw o).seq = s.seq := rfl

/-- Whether a step is enabled does not depend on ODDW (R43). -/
theorem State.withOddw_enabled (o : Bool) (s : State) : (s.withOddw o).enabled = s.enabled := rfl

/-- Neither does what a beat does. -/
theorem State.withOddw_beat (o : Bool) (i : PalIndex) (s : State) :
    (s.withOddw o).beat i = (s.beat i).withOddw o := by
  obtain h | ⟨h, hc⟩ | ⟨hc, hr⟩ | ⟨hc, hr⟩ := s.beat_kind
  · rw [State.beat_hold i h, State.beat_hold (s := s.withOddw o) i h]; rfl
  · rw [State.beat_nextColumn i h hc, State.beat_nextColumn (s := s.withOddw o) i h hc]; rfl
  · rw [State.beat_nextRow i hc hr, State.beat_nextRow (s := s.withOddw o) i hc hr]; rfl
  · rw [State.beat_endOfRun i hc hr, State.beat_endOfRun (s := s.withOddw o) i hc hr]; rfl

/-- Only STATUS shows ODDW (R21, R32). -/
theorem State.withOddw_readReg (o : Bool) (s : State) {reg : Reg} (h : reg ≠ .status) :
    (s.withOddw o).readReg reg = s.readReg reg := by
  cases reg with
  | status => exact absurd rfl h
  | width | height | xpos | ypos | hold | bytecnt | fcmd => rfl

/-- A rule other than the read of STATUS takes ODDW along, or overwrites it. -/
theorem ruleOf_withOddw (o : Bool) (s : State) {i : Instr} (h : i ≠ .rdreg .status) :
    ∃ o', ruleOf i (s.withOddw o) = (ruleOf i s).withOddw o' := by
  cases i with
  | nop | qry | palrd => exact ⟨o, rfl⟩
  | clr => exact ⟨false, rfl⟩
  | rdreg reg =>
    refine ⟨o, ?_⟩
    rw [ruleOf, ruleRdreg, State.withOddw_readReg o s fun hreg => h (hreg ▸ rfl)]
    rfl
  | setw d => exact ⟨o, by cases hseq : s.seq <;> simp only [ruleOf, ruleSetw, State.withOddw_seq, hseq] <;> rfl⟩
  | seth d => exact ⟨o, by cases hseq : s.seq <;> simp only [ruleOf, ruleSeth, State.withOddw_seq, hseq] <;> rfl⟩
  | start =>
    cases hseq : s.seq with
    | run | fault => exact ⟨o, by simp only [ruleOf, ruleStart, State.withOddw_seq, hseq]; rfl⟩
    | idle =>
      have hdim : (s.withOddw o).badDimension = s.badDimension := rfl
      simp only [ruleOf, ruleStart, State.withOddw_seq, hseq, hdim]
      cases s.badDimension with
      | true => exact ⟨o, rfl⟩
      | false => exact ⟨s.oddWidth, rfl⟩
  | pix r g b =>
    refine ⟨o, ?_⟩
    cases hseq : s.seq with
    | idle | fault => simp only [ruleOf, rulePix, State.withOddw_seq, hseq]; rfl
    | run =>
      simp only [ruleOf, rulePix, State.withOddw_seq, hseq]
      exact State.withOddw_beat o _ s.popCmd

theorem State.illegalWord_withOddw (o : Bool) (w : Word32) (s : State) :
    (s.withOddw o).illegalWord w = (s.illegalWord w).withOddw o := by
  cases hseq : s.seq <;> simp only [State.illegalWord, State.withOddw_seq, hseq] <;> rfl

/-- The unheld step of a command other than the read of STATUS takes ODDW along, or overwrites it. -/
theorem unheldStep_withOddw (o : Bool) {s : State} (h : ∀ rest, s.cmd ≠ encode (.rdreg .status) :: rest) :
    ∃ o', unheldStep (s.withOddw o) = (unheldStep s).withOddw o' := by
  cases hcmd : s.cmd with
  | nil => exact ⟨o, by rw [unheldStep_of_cmd_nil hcmd, unheldStep_of_cmd_nil (s := s.withOddw o) hcmd]⟩
  | cons w rest =>
    rw [unheldStep_of_cmd_cons hcmd, unheldStep_of_cmd_cons (s := s.withOddw o) hcmd]
    cases hdec : decode w with
    | error e =>
      rw [wordRule_of_decode_error hdec, wordRule_of_decode_error hdec]
      exact ⟨o, State.illegalWord_withOddw o w s⟩
    | ok i =>
      rw [wordRule_of_decode_ok hdec, wordRule_of_decode_ok hdec]
      refine ruleOf_withOddw o s ?_
      rintro rfl
      exact h rest (by rw [hcmd, encode_of_decode_ok hdec])

/-- Settles O36: the step is enabled alike, and the unheld step carries ODDW along. -/
theorem oddWidthFlagSteersNothing : Obligations.OddWidthFlagSteersNothing := by
  intro s t o hread h
  change ∃ t', step (s.withOddw o) = .next t' ∧ t'.withOddw t.oddw = t
  cases hen : s.enabled with
  | false =>
    rw [step_of_not_enabled hen] at h; cases h
    exact ⟨_, step_of_not_enabled ((s.withOddw_enabled o).trans hen), rfl⟩
  | true =>
    rw [step_of_enabled hen] at h; cases h
    obtain ⟨o', ho'⟩ := unheldStep_withOddw o hread
    exact ⟨_, step_of_enabled ((s.withOddw_enabled o).trans hen), by rw [ho']; rfl⟩

end Sys2Proof.Machine
end

section
/-! PROOFS. The bits of STATUS (R32). -/

namespace Sys2Proof.Machine

/-- STATUS is built from one code and four flags, so its layout is a check over their 256 combinations. -/
theorem State.statusWord_fields (s : State) :
    s.statusWord.getLsbD 0 = s.busy ∧ s.statusWord.getLsbD 1 = s.done ∧ s.statusWord.getLsbD 2 = s.oddw ∧
    s.statusWord.getLsbD 3 = s.faulted ∧ s.statusWord.extractLsb' 4 4 = s.cause.code ∧
    s.statusWord.extractLsb' 8 24 = 0 := by
  unfold State.statusWord
  generalize s.busy = busy, s.done = done, s.oddw = oddw, s.faulted = faulted, s.cause.code = code
  revert busy done oddw faulted code
  decide

theorem State.busy_iff (s : State) : s.busy = true ↔ s.seq = .run := by simp [State.busy]

theorem State.faulted_iff (s : State) : s.faulted = true ↔ s.seq = .fault := by simp [State.faulted]

/-- Settles O24: the fields of the concatenation, with BUSY and FAULT read off STATE. -/
theorem statusLayout : Obligations.StatusLayout := by
  refine ⟨fun s => ?_, by decide⟩
  obtain ⟨hbusy, hdone, hoddw, hfault, hcode, hzero⟩ := s.statusWord_fields
  rw [hbusy, hfault, State.busy_iff, State.faulted_iff]
  refine ⟨Iff.rfl, hdone, hoddw, Iff.rfl, ?_, hzero, ?_⟩
  · rw [hcode]; cases s.cause <;> rfl
  · rintro ⟨hrun, hfault⟩
    rw [hrun] at hfault; cases hfault

end Sys2Proof.Machine
end

section
/-! PROOFS. What a quiet command leaves unchanged (R77, R201). -/

namespace Sys2Proof.Machine

theorem isQuiet_iff (w : Word32) : isQuiet w = true ↔ ∃ i, decode w = .ok i ∧ isQuietCommand i = true := by
  unfold isQuiet
  cases decode w <;> simp

/-- The frame of NOP, QRY, PALRD and RDREG: a word leaves CMD, and at most one enters RSP (R144, R145, R201, R202). -/
theorem ruleOf_frame_of_isQuietCommand {i : Instr} (h : isQuietCommand i = true) (s : State) :
    { ruleOf i s with cmd := s.cmd, rsp := s.rsp } = s := by
  cases i with
  | nop | qry | palrd | rdreg => rfl
  | setw | seth | start | pix | clr => cases h

/-- Settles O34: the step is the command's rule, which has that frame, or the command is held. -/
theorem readsChangeNoRegister : Obligations.ReadsChangeNoRegister := by
  intro s t w rest hcmd hquiet h
  obtain ⟨i, hdec, hi⟩ := (isQuiet_iff w).1 hquiet
  rw [step_of_decode_ok hcmd hdec, exec_eq_whenRoom] at h
  obtain ⟨-, rfl⟩ | ⟨-, rfl⟩ := whenRoom_cases h
  · exact ruleOf_frame_of_isQuietCommand hi s
  · rfl

end Sys2Proof.Machine
end

section
/-! PROOFS. The rule of one word on the queues, and `drained` word by word (R10, R42, R101). -/

namespace Sys2Proof.Machine

/-- A command's rule takes the head word and pushes the command's response, if it has one (R41, R101). -/
theorem ruleOf_cmd_rsp (i : Instr) (s : State) :
    (ruleOf i s).cmd = s.cmd.tail ∧ (ruleOf i s).rsp = s.rsp ++ (responseOf i s).toList := by
  cases i with
  | qry | palrd | rdreg => exact ⟨rfl, rfl⟩
  | nop | clr => simp [ruleOf, ruleNop, ruleClr, responseOf]
  | setw d => cases hseq : s.seq <;> simp [ruleOf, ruleSetw, hseq, responseOf]
  | seth d => cases hseq : s.seq <;> simp [ruleOf, ruleSeth, hseq, responseOf]
  | start =>
    cases hseq : s.seq with
    | run | fault => simp [ruleOf, ruleStart, hseq, responseOf]
    | idle => cases hdim : s.badDimension <;> simp [ruleOf, ruleStart, hseq, hdim, responseOf]
  | pix r g b => cases hseq : s.seq <;> simp [ruleOf, rulePix, hseq, responseOf]

theorem wordResponse_of_decode_ok {w : Word32} {i : Instr} (hdec : decode w = .ok i) (s : State) :
    wordResponse w s = responseOf i s := by
  simp only [wordResponse, hdec]

theorem wordResponse_of_decode_error {w : Word32} {e : IllegalWord} (hdec : decode w = .error e) (s : State) :
    wordResponse w s = none := by
  simp only [wordResponse, hdec]

/-- The same of a word: an illegal one takes its place in CMD and has no response (R99, R101). -/
theorem wordRule_cmd_rsp (w : Word32) (s : State) :
    (wordRule w s).cmd = s.cmd.tail ∧ (wordRule w s).rsp = s.rsp ++ (wordResponse w s).toList := by
  cases hdec : decode w with
  | ok i =>
    rw [wordRule_of_decode_ok hdec, wordResponse_of_decode_ok hdec]
    exact ruleOf_cmd_rsp i s
  | error e =>
    rw [wordRule_of_decode_error hdec, wordResponse_of_decode_error hdec]
    obtain ⟨-, h⟩ | ⟨-, h⟩ := State.illegalWord_cases w s <;> simp [h]

theorem wordRule_cmd_of_cmd_cons {s : State} {w : Word32} {rest : List Word32} (hcmd : s.cmd = w :: rest) :
    (wordRule w s).cmd = rest := by
  rw [(wordRule_cmd_rsp w s).1, hcmd, List.tail_cons]

theorem wordRule_rsp (w : Word32) (s : State) : (wordRule w s).rsp = s.rsp ++ (wordResponse w s).toList :=
  (wordRule_cmd_rsp w s).2

theorem State.drained_of_cmd_nil {s : State} (hcmd : s.cmd = []) : s.drained = s := by
  rw [State.drained, hcmd]; rfl

theorem State.drained_of_cmd_cons {s : State} {w : Word32} {rest : List Word32} (hcmd : s.cmd = w :: rest) :
    s.drained = (wordRule w s).drained := by
  rw [State.drained, State.drained, wordRule_cmd_of_cmd_cons hcmd, hcmd, ← unheldStep_of_cmd_cons hcmd]; rfl

/-- Draining goes on from an unheld step to the same end. -/
theorem State.drained_unheldStep (s : State) : (unheldStep s).drained = s.drained := by
  cases hcmd : s.cmd with
  | nil => rw [unheldStep_of_cmd_nil hcmd]
  | cons w rest => rw [unheldStep_of_cmd_cons hcmd, State.drained_of_cmd_cons hcmd]

/-- Induction along the words in CMD: what holds with CMD empty, and before a word if after its rule, holds. -/
theorem State.cmd_induction {P : State → Prop} (nil : ∀ s : State, s.cmd = [] → P s)
    (cons : ∀ (s : State) (w : Word32) (rest : List Word32), s.cmd = w :: rest → P (wordRule w s) → P s)
    (s : State) : P s := by
  induction hcmd : s.cmd generalizing s with
  | nil => exact nil s hcmd
  | cons w rest ih => exact cons s w rest hcmd (ih _ (wordRule_cmd_of_cmd_cons hcmd))

theorem State.drained_cmd (s : State) : s.drained.cmd = [] := by
  induction s using State.cmd_induction with
  | nil s hcmd => rw [State.drained_of_cmd_nil hcmd, hcmd]
  | cons s w rest hcmd ih => rw [State.drained_of_cmd_cons hcmd, ih]

end Sys2Proof.Machine
end

section
/-! PROOFS. The channels as a frame: words queued behind those in CMD, and items pushed before those in OUT and RSP,
stay where they are while a word is executed (R40, R41). -/

namespace Sys2Proof.Machine

/-- The state with `ws` queued behind its own words, and `bs` and `vs` pushed before its own items. -/
def State.framed (ws : List Word32) (bs : List Byte) (vs : List Word32) (s : State) : State :=
  { s with cmd := s.cmd ++ ws, out := bs ++ s.out, rsp := vs ++ s.rsp }

section
variable (ws : List Word32) (bs : List Byte) (vs : List Word32)

@[simp] theorem State.framed_seq (s : State) : (s.framed ws bs vs).seq = s.seq := rfl
@[simp] theorem State.framed_cmd (s : State) : (s.framed ws bs vs).cmd = s.cmd ++ ws := rfl
@[simp] theorem State.framed_rsp (s : State) : (s.framed ws bs vs).rsp = vs ++ s.rsp := rfl

@[simp] theorem State.framed_badDimension (s : State) : (s.framed ws bs vs).badDimension = s.badDimension := rfl

/-- No response shows a channel (R102 to R104, R21). -/
theorem wordResponse_framed (w : Word32) (s : State) : wordResponse w (s.framed ws bs vs) = wordResponse w s := by
  cases hdec : decode w with
  | error e => rw [wordResponse_of_decode_error hdec, wordResponse_of_decode_error hdec]
  | ok i =>
    rw [wordResponse_of_decode_ok hdec, wordResponse_of_decode_ok hdec]
    cases i with
    | rdreg reg => cases reg <;> rfl
    | nop | setw | seth | start | pix | qry | palrd | clr => rfl

theorem State.framed_popCmd {s : State} (hcmd : s.cmd ≠ []) :
    (s.framed ws bs vs).popCmd = s.popCmd.framed ws bs vs := by
  simp only [State.framed, State.popCmd, List.tail_append_of_ne_nil hcmd]

theorem State.framed_takeFault (c : Cause) (w : Word32) {s : State} (hcmd : s.cmd ≠ []) :
    (s.framed ws bs vs).takeFault c w = (s.takeFault c w).framed ws bs vs := by
  rw [State.takeFault, State.framed_popCmd ws bs vs hcmd]; rfl

theorem State.framed_respond (v : Word32) {s : State} (hcmd : s.cmd ≠ []) :
    (s.framed ws bs vs).respond v = (s.respond v).framed ws bs vs := by
  rw [State.respond, State.framed_popCmd ws bs vs hcmd]
  simp only [State.framed, State.respond, State.pushRsp, List.append_assoc]

/-- A beat needs nothing of what the channels hold (R175). -/
theorem State.framed_beat (i : PalIndex) (s : State) :
    (s.framed ws bs vs).beat i = (s.beat i).framed ws bs vs := by
  obtain h | ⟨h, hc⟩ | ⟨hc, hr⟩ | ⟨hc, hr⟩ := s.beat_kind
  · rw [State.beat_hold i h, State.beat_hold (s := s.framed ws bs vs) i h]; rfl
  · rw [State.beat_nextColumn i h hc, State.beat_nextColumn (s := s.framed ws bs vs) i h hc]
    simp only [State.framed, List.append_assoc]; rfl
  · rw [State.beat_nextRow i hc hr, State.beat_nextRow (s := s.framed ws bs vs) i hc hr]
    simp only [State.framed, List.append_assoc]; rfl
  · rw [State.beat_endOfRun i hc hr, State.beat_endOfRun (s := s.framed ws bs vs) i hc hr]
    simp only [State.framed, List.append_assoc]; rfl

/-- Every command's rule leaves the frame in place. -/
theorem ruleOf_framed (i : Instr) {s : State} (hcmd : s.cmd ≠ []) :
    ruleOf i (s.framed ws bs vs) = (ruleOf i s).framed ws bs vs := by
  have hpop := State.framed_popCmd ws bs vs hcmd
  have hfault := fun c w => State.framed_takeFault ws bs vs c w hcmd
  cases i with
  | nop => exact hpop
  | clr => rw [ruleOf, ruleClr, hpop]; rfl
  | qry | palrd => exact State.framed_respond ws bs vs _ hcmd
  | rdreg reg =>
    have hread : (s.framed ws bs vs).readReg reg = s.readReg reg := by cases reg <;> rfl
    rw [ruleOf, ruleRdreg, hread]
    exact State.framed_respond ws bs vs _ hcmd
  | setw d =>
    cases hseq : s.seq <;> simp only [ruleOf, ruleSetw, State.framed_seq, hseq, hpop, hfault, State.discard_eq]
    rfl
  | seth d =>
    cases hseq : s.seq <;> simp only [ruleOf, ruleSeth, State.framed_seq, hseq, hpop, hfault, State.discard_eq]
    rfl
  | start =>
    cases hseq : s.seq with
    | run | fault => simp only [ruleOf, ruleStart, State.framed_seq, hseq, hpop, hfault, State.discard_eq]
    | idle =>
      simp only [ruleOf, ruleStart, State.framed_seq, hseq, State.framed_badDimension, hpop, hfault]
      cases s.badDimension <;> rfl
  | pix r g b =>
    cases hseq : s.seq <;>
      simp only [ruleOf, rulePix, State.framed_seq, hseq, hpop, hfault, State.discard_eq, State.framed_beat]

/-- So does an illegal word, and with it every word. -/
theorem wordRule_framed (w : Word32) {s : State} (hcmd : s.cmd ≠ []) :
    wordRule w (s.framed ws bs vs) = (wordRule w s).framed ws bs vs := by
  cases hdec : decode w with
  | ok i => rw [wordRule_of_decode_ok hdec, wordRule_of_decode_ok hdec, ruleOf_framed ws bs vs i hcmd]
  | error e =>
    rw [wordRule_of_decode_error hdec, wordRule_of_decode_error hdec]
    cases hseq : s.seq <;>
      simp only [State.illegalWord, State.framed_seq, hseq, State.discard_eq, State.framed_popCmd ws bs vs hcmd,
        State.framed_takeFault ws bs vs _ w hcmd]

theorem unheldStep_framed {s : State} (hcmd : s.cmd ≠ []) :
    unheldStep (s.framed ws bs vs) = (unheldStep s).framed ws bs vs := by
  obtain ⟨w, rest, hcons⟩ := List.exists_cons_of_ne_nil hcmd
  have hframed : (s.framed ws bs vs).cmd = w :: (rest ++ ws) := by rw [State.framed_cmd, hcons]; rfl
  rw [unheldStep_of_cmd_cons hcons, unheldStep_of_cmd_cons hframed, wordRule_framed ws bs vs w hcmd]

/-- The words in CMD are executed first, then those queued behind them (R10). -/
theorem State.drained_framed (s : State) : (s.framed ws bs vs).drained = (s.drained.framed ws bs vs).drained := by
  induction s using State.cmd_induction with
  | nil s hcmd => rw [State.drained_of_cmd_nil hcmd]
  | cons s w rest hcmd ih =>
    have hne : s.cmd ≠ [] := by simp [hcmd]
    have hframed : (s.framed ws bs vs).cmd = w :: (rest ++ ws) := by rw [State.framed_cmd, hcmd]; rfl
    rw [State.drained_of_cmd_cons hframed, wordRule_framed ws bs vs w hne, ih, State.drained_of_cmd_cons hcmd]

end

end Sys2Proof.Machine
end

section
/-! PROOFS. What a schedule without reset amounts to (R272): no event of it changes what the block will have done once
CMD is empty, counting with CMD the words the schedule is still to append. -/

namespace Sys2Proof.Machine

/-- What the block will have done, holding nothing back, when it has executed the words in CMD and then `ws`; the
items the host has removed are back in their channels. -/
def Link.outcome (ws : List Word32) (l : Link) : State := (l.block.framed ws l.gotOut l.gotRsp).drained

theorem Link.outcome_to (ws : List Word32) (s : State) :
    (Link.to s).outcome ws = { s with cmd := s.cmd ++ ws }.drained := rfl

/-- With CMD empty and nothing to come, the outcome is there. -/
theorem Link.outcome_of_cmd_nil {l : Link} (hcmd : l.block.cmd = []) : l.outcome [] = l.total := by
  have hframed : (l.block.framed [] l.gotOut l.gotRsp).cmd = [] := by rw [State.framed_cmd, hcmd]; rfl
  rw [Link.outcome, State.drained_of_cmd_nil hframed, State.framed, List.append_nil]; rfl

/-- A step, held or not, leaves the outcome (R43). -/
theorem Link.outcome_step (ws : List Word32) {l : Link} {t : State} (h : step l.block = .next t) :
    { l with block := t }.outcome ws = l.outcome ws := by
  cases hen : l.block.enabled with
  | false => rw [step_of_not_enabled hen] at h; cases h; rfl
  | true =>
    have hne : l.block.cmd ≠ [] := fun hnil => by simp [State.enabled_of_cmd_nil hnil] at hen
    rw [step_of_enabled hen] at h; cases h
    rw [Link.outcome, ← unheldStep_framed ws l.gotOut l.gotRsp hne, State.drained_unheldStep]; rfl

/-- Every event but reset leaves the outcome; the word an append brings is one of those that were to come. -/
theorem Link.outcome_after {e : Event} {es : List Event} {l l' : Link} (hreset : e ≠ .reset)
    (h : l.after e = some l') : l'.outcome (appendedWords es) = l.outcome (appendedWords (e :: es)) := by
  cases e with
  | step =>
    obtain ⟨hstep, hl'⟩ := Link.after_step h
    rw [hl']
    exact Link.outcome_step _ hstep
  | append w =>
    obtain ⟨-, rfl⟩ := Link.after_append h
    simp only [Link.outcome, State.framed, appendedWords, List.append_assoc, List.singleton_append]
  | takeOut =>
    obtain ⟨b, q, hq, rfl⟩ := Link.after_takeOut h
    simp only [Link.outcome, State.framed, appendedWords, hq, List.append_assoc, List.singleton_append]
  | takeRsp =>
    obtain ⟨v, q, hq, rfl⟩ := Link.after_takeRsp h
    simp only [Link.outcome, State.framed, appendedWords, hq, List.append_assoc, List.singleton_append]
  | reset => exact absurd rfl hreset

theorem Link.outcome_run {es : List Event} {l l' : Link} (hreset : .reset ∉ es) (h : Link.run es l = some l') :
    l'.outcome [] = l.outcome (appendedWords es) := by
  induction es generalizing l with
  | nil => cases h; rfl
  | cons e es ih =>
    obtain ⟨hne, hes⟩ := List.ne_and_not_mem_of_not_mem_cons hreset
    obtain ⟨m, hm, hrun⟩ := Link.run_cons_eq_some.1 h
    rw [ih hes hrun, Link.outcome_after hne.symm hm]

/-- A schedule that ends with CMD empty has given what the same words give when nothing is held (R272). -/
theorem Link.total_of_run {s : State} {es : List Event} {l : Link} (h : Link.run es (Link.to s) = some l)
    (hreset : .reset ∉ es) (hcmd : l.block.cmd = []) :
    l.total = { s with cmd := s.cmd ++ appendedWords es }.drained := by
  rw [← Link.outcome_of_cmd_nil hcmd, Link.outcome_run hreset h, Link.outcome_to]

end Sys2Proof.Machine
end

section
/-! PROOFS. One response for each request, in the order of the requests (R81, R101). -/

namespace Sys2Proof.Machine

/-- A word has a response exactly when its rule pushes one, whatever the state (R101). -/
theorem wordResponse_isSome (w : Word32) (s : State) : (wordResponse w s).isSome = wordPushesRsp w := by
  unfold wordPushesRsp
  cases hdec : decode w with
  | error e => rw [wordResponse_of_decode_error hdec]; rfl
  | ok i => rw [wordResponse_of_decode_ok hdec]; cases i <;> rfl

theorem filter_wordPushesRsp_cons_length (w : Word32) (ws : List Word32) (s : State) :
    ((w :: ws).filter wordPushesRsp).length =
      (wordResponse w s).toList.length + (ws.filter wordPushesRsp).length := by
  rw [List.filter_cons, ← wordResponse_isSome w s]
  cases wordResponse w s <;> simp [Nat.add_comm]

/-- The words in CMD are answered behind what RSP holds, as many as there are requests. -/
theorem State.drained_rsp (s : State) :
    ∃ vs, s.drained.rsp = s.rsp ++ vs ∧ vs.length = (s.cmd.filter wordPushesRsp).length := by
  induction s using State.cmd_induction with
  | nil s hcmd => exact ⟨[], by simp [State.drained_of_cmd_nil hcmd, hcmd]⟩
  | cons s w rest hcmd ih =>
    obtain ⟨vs, hrsp, hlen⟩ := ih
    refine ⟨(wordResponse w s).toList ++ vs, ?_, ?_⟩
    · rw [State.drained_of_cmd_cons hcmd, hrsp, wordRule_rsp, List.append_assoc]
    · rw [List.length_append, hlen, wordRule_cmd_of_cmd_cons hcmd, hcmd, filter_wordPushesRsp_cons_length w rest s]

/-- The answer to a word in CMD stands between those to the words before it and those to the words after it, and is
its response in the state those before it lead to. -/
theorem State.drained_rsp_at {s : State} {ws₁ ws₂ : List Word32} {w : Word32} (hcmd : s.cmd = ws₁ ++ w :: ws₂) :
    ∃ vs₁ vs₂ : List Word32,
      s.drained.rsp = s.rsp ++ vs₁ ++ (wordResponse w { s with cmd := ws₁ }.drained).toList ++ vs₂ ∧
      vs₁.length = (ws₁.filter wordPushesRsp).length ∧ vs₂.length = (ws₂.filter wordPushesRsp).length := by
  obtain ⟨vs₁, hrsp₁, hlen₁⟩ := State.drained_rsp { s with cmd := ws₁ }
  have hs : s = { s with cmd := ws₁ }.framed (w :: ws₂) [] [] := by rw [State.framed, ← hcmd]; rfl
  have hdrained := State.drained_framed (w :: ws₂) [] [] { s with cmd := ws₁ }
  have hempty := State.drained_cmd { s with cmd := ws₁ }
  rw [← hs] at hdrained
  generalize { s with cmd := ws₁ }.drained = t at *
  have hhead : (t.framed (w :: ws₂) [] []).cmd = w :: ws₂ := by rw [State.framed_cmd, hempty]; rfl
  obtain ⟨vs₂, hrsp₂, hlen₂⟩ := State.drained_rsp (wordRule w (t.framed (w :: ws₂) [] []))
  rw [wordRule_cmd_of_cmd_cons hhead] at hlen₂
  refine ⟨vs₁, vs₂, ?_, hlen₁, hlen₂⟩
  rw [hdrained, State.drained_of_cmd_cons hhead, hrsp₂, wordRule_rsp, wordResponse_framed, State.framed_rsp,
    List.nil_append, hrsp₁]

/-- Settles O55: the answers to the words in CMD, which a schedule gives as well. -/
theorem responsesMatchRequests : Obligations.ResponsesMatchRequests := by
  refine ⟨State.drained_rsp, wordResponse_isSome, fun _ _ _ _ => State.drained_rsp_at, ?_⟩
  intro s es l ws₁ ws₂ w hnil hrun hreset hcmd hwords
  have htotal : l.total = { s with cmd := ws₁ ++ w :: ws₂ }.drained := by
    rw [Link.total_of_run hrun hreset hcmd, hnil, hwords, List.nil_append]
  change ∃ vs₁ vs₂ : List Word32, l.total.rsp = _ ∧ _
  rw [htotal]
  exact State.drained_rsp_at (s := { s with cmd := ws₁ ++ w :: ws₂ }) rfl

end Sys2Proof.Machine
end

section
/-! PROOFS. The legal words are the words of the commands, each of one command only (R92 to R99). -/

namespace Sys2Proof

/-- Settles O2: `decode_encode`, proved command by command from the fields of the word. -/
theorem decodeInvertsEncode : Obligations.DecodeInvertsEncode := decode_encode

/-- Settles O3: `encode_of_decode_ok`, proved row by row of the decoder. -/
theorem encodeInvertsDecode : Obligations.EncodeInvertsDecode := fun _ _ => encode_of_decode_ok

/-- Decoding is the inverse of encoding, as one equivalence. -/
theorem decode_ok_iff (w : Word32) (i : Instr) : decode w = .ok i ↔ encode i = w :=
  ⟨encode_of_decode_ok, fun h => h ▸ decode_encode i⟩

theorem encode_injective : Function.Injective encode :=
  fun i j h => Except.ok.inj ((decode_encode i).symm.trans ((congrArg decode h).trans (decode_encode j)))

/-- Settles O1: each word is decoded. -/
theorem decodeReadsExampleWords : Obligations.DecodeReadsExampleWords := by
  unfold Obligations.DecodeReadsExampleWords
  decide

end Sys2Proof
end

section
/-! PROOFS. The decoder against `opcode_table.json` (R93): a row's mask keeps the high bits of a word, so the words of
the row are its match above any low bits, and the low bits are the operands. -/

namespace Sys2Proof.Laws

/-- A word whose masked high part is `v` is `v` above its own low part. -/
theorem eq_append_of_and_highMask {m n : Nat} {w : BitVec (m + n)} {v : BitVec m}
    (h : w &&& (BitVec.allOnes m ++ 0#n) = v ++ 0#n) : v ++ w.extractLsb' 0 n = w := by
  have hsplit : w.extractLsb' n m ++ w.extractLsb' 0 n = w := by ext i hi; simp
  rw [← hsplit, append_and_highMask, BitVec.append_left_inj] at h
  rw [← h, hsplit]

/-- The low 24 bits of a word are its colour (R97). -/
theorem rgbBits_colourOf (w : Word32) : rgbBits ⟨redOf w, greenOf w, blueOf w⟩ = w.extractLsb' 0 24 := by
  apply BitVec.eq_of_toNat_eq
  rw [rgbBits_toNat, redOf, greenOf, blueOf]
  simp only [field_toNat]
  omega

/-- The word of a command matches the command's row, which is in the table. -/
theorem wordMatchesRow (i : Instr) : WordMatchesRow.Statement i := by
  cases i with
  | nop => exact WordMatchesRow.nop
  | setw d => exact WordMatchesRow.setw d
  | seth d => exact WordMatchesRow.seth d
  | start => exact WordMatchesRow.start
  | pix r g b => exact WordMatchesRow.pix r g b
  | qry r g b => exact WordMatchesRow.qry r g b
  | palrd idx => exact WordMatchesRow.palrd idx
  | rdreg reg => exact WordMatchesRow.rdreg reg
  | clr => exact WordMatchesRow.clr

/-- A word that matches a row is the word of a command of that row. -/
theorem exists_encode_of_matches {row : TableRow} (hrow : row ∈ opcodeTable) {w : Word32}
    (h : w &&& row.mask = row.value) : ∃ i, encode i = w ∧ rowOf i = row := by
  simp only [opcodeTable, List.mem_cons, List.not_mem_nil, or_false] at hrow
  obtain rfl | rfl | rfl | rfl | rfl | rfl | rfl | rfl | rfl := hrow
  · exact ⟨.nop, (BitVec.and_allOnes ▸ h).symm, rfl⟩
  · exact ⟨.setw (dimOf w), eq_append_of_and_highMask (v := 0x1000#16) h, rfl⟩
  · exact ⟨.seth (dimOf w), eq_append_of_and_highMask (v := 0x2000#16) h, rfl⟩
  · exact ⟨.start, (BitVec.and_allOnes ▸ h).symm, rfl⟩
  · refine ⟨.pix (redOf w) (greenOf w) (blueOf w), ?_, rfl⟩
    rw [encode, rgbBits_colourOf]
    exact eq_append_of_and_highMask (v := 0x40#8) h
  · refine ⟨.qry (redOf w) (greenOf w) (blueOf w), ?_, rfl⟩
    rw [encode, rgbBits_colourOf]
    exact eq_append_of_and_highMask (v := 0x50#8) h
  · exact ⟨.palrd (idxOf w), eq_append_of_and_highMask (v := 0x6000000#28) h, rfl⟩
  · refine ⟨.rdreg (regOf w), ?_, rfl⟩
    rw [encode, regOf_num]
    exact eq_append_of_and_highMask (v := 0x7#4 ++ 0#25) h
  · exact ⟨.clr, (BitVec.and_allOnes ▸ h).symm, rfl⟩

/-- No two rows have one mnemonic. -/
theorem row_eq_of_mnemonic_eq {r₁ r₂ : TableRow} (h₁ : r₁ ∈ opcodeTable) (h₂ : r₂ ∈ opcodeTable)
    (h : r₁.mnemonic = r₂.mnemonic) : r₁ = r₂ :=
  List.inj_on_of_nodup_map (f := TableRow.mnemonic) (by decide) h₁ h₂ h

/-- A word matches a row exactly when it decodes to a command of that row. -/
theorem matches_iff_decode {row : TableRow} (hrow : row ∈ opcodeTable) (w : Word32) :
    w &&& row.mask = row.value ↔ ∃ i, decode w = .ok i ∧ rowOf i = row := by
  simp only [decode_ok_iff]
  refine ⟨exists_encode_of_matches hrow, ?_⟩
  rintro ⟨i, rfl, rfl⟩
  obtain ⟨-, -, hmatch⟩ := wordMatchesRow i
  exact hmatch

/-- The mnemonic of a command names its row. -/
theorem rowOf_eq_iff {row : TableRow} (hrow : row ∈ opcodeTable) (i : Instr) :
    rowOf i = row ↔ i.mnemonic = row.mnemonic := by
  obtain ⟨hmem, hname, -⟩ := wordMatchesRow i
  rw [← hname]
  exact ⟨congrArg _, row_eq_of_mnemonic_eq hmem hrow⟩

/-- A word decodes to one command, so it matches the row of that command only. -/
theorem row_eq_of_matches {w : Word32} {r₁ r₂ : TableRow} (h₁ : r₁ ∈ opcodeTable) (h₂ : r₂ ∈ opcodeTable)
    (hm₁ : w &&& r₁.mask = r₁.value) (hm₂ : w &&& r₂.mask = r₂.value) : r₁ = r₂ := by
  obtain ⟨i, hi, rfl⟩ := exists_encode_of_matches h₁ hm₁
  obtain ⟨j, hj, rfl⟩ := exists_encode_of_matches h₂ hm₂
  rw [encode_injective (hi.trans hj.symm)]

/-- A word of no row is illegal, since a legal one matches the row of its command. -/
theorem decode_error_of_no_match {w : Word32} (h : ∀ row ∈ opcodeTable, w &&& row.mask ≠ row.value) :
    ∃ e, decode w = .error e := by
  cases hdec : decode w with
  | error e => exact ⟨e, rfl⟩
  | ok i =>
    obtain ⟨hmem, -, -⟩ := wordMatchesRow i
    exact absurd ((matches_iff_decode hmem w).2 ⟨i, hdec, rfl⟩) (h _ hmem)

/-- Settles O4: the table clauses above, and the operands read off the number of the command's own word. -/
theorem decodeFollowsOpcodeTable : Obligations.DecodeFollowsOpcodeTable := by
  refine ⟨fun row hrow w => ?_, fun w r₁ h₁ r₂ h₂ => row_eq_of_matches h₁ h₂, fun w => decode_error_of_no_match,
    ?_, ?_, ?_, ?_⟩
  · rw [matches_iff_decode hrow]
    simp only [rowOf_eq_iff hrow]
  all_goals simp only [decode_ok_iff]
  · intro w d h
    have hd := d.isLt
    obtain rfl | rfl := h
    · rw [encode_setw_toNat]; omega
    · rw [encode_seth_toNat]; omega
  · intro w r g b h
    have hr := r.isLt; have hg := g.isLt; have hb := b.isLt
    obtain rfl | rfl := h
    · rw [encode_pix_toNat]; omega
    · rw [encode_qry_toNat]; omega
  · rintro w idx rfl
    have hidx := idx.isLt
    rw [encode_palrd_toNat]; omega
  · rintro w reg rfl
    have hreg := reg.num.isLt
    rw [encode_rdreg_toNat]; omega

end Sys2Proof.Laws
end

section
/-! PROOFS. Which words are illegal, and how many are legal (R99). -/

namespace Sys2Proof

/-- A row refuses a word exactly when the number of the reserved field is not 0. -/
theorem unlessReserved_field_error_iff (w : Word32) (lo n : Nat) (i : Instr) :
    (∃ e, unlessReserved (w.extractLsb' lo n) i = .error e) ↔ w.toNat / 2 ^ lo % 2 ^ n ≠ 0 := by
  rw [unlessReserved_error_iff, Ne, field_eq_iff]; rfl

/-- Format N reserves all bits below the opcode (R94). -/
theorem unlessReserved_formatN_error_iff (w : Word32) (i : Instr) :
    (∃ e, unlessReserved (w.extractLsb' 0 28) i = .error e) ↔ w.toNat % 2 ^ 28 ≠ 0 := by
  rw [unlessReserved_field_error_iff, pow_zero, Nat.div_one]

/-- Settles O5: opcode by opcode, the reserved field of the row. -/
theorem illegalExactlyByOpcodeOrReservedBit : Obligations.IllegalExactlyByOpcodeOrReservedBit := by
  intro w
  simp only [decode, opcodeOf_toNat]
  generalize w.toNat / 2 ^ 28 = op
  match op with
  | 0 | 3 | 8 => exact unlessReserved_formatN_error_iff w _
  | 1 | 2 | 4 | 5 | 6 | 7 => exact unlessReserved_field_error_iff w _ _ _
  | _ + 9 => exact iff_of_true ⟨_, rfl⟩ trivial

/-- The registers are counted by their numbers (R21). -/
def regEquivNum : Reg ≃ BitVec 3 where
  toFun := Reg.num
  invFun := regOfNum
  left_inv := regOfNum_num
  right_inv := num_regOfNum

/-- The operands of each row of R92, in its order; a row without operands has one value. -/
abbrev Operands : Type :=
  Unit ⊕ Dim ⊕ Dim ⊕ Unit ⊕ (Comp × Comp × Comp) ⊕ (Comp × Comp × Comp) ⊕ PalIndex ⊕ Reg ⊕ Unit

/-- A command is its row and the operands of that row. -/
def instrEquivOperands : Instr ≃ Operands where
  toFun
    | .nop => .inl ()
    | .setw d => .inr (.inl d)
    | .seth d => .inr (.inr (.inl d))
    | .start => .inr (.inr (.inr (.inl ())))
    | .pix r g b => .inr (.inr (.inr (.inr (.inl (r, g, b)))))
    | .qry r g b => .inr (.inr (.inr (.inr (.inr (.inl (r, g, b))))))
    | .palrd i => .inr (.inr (.inr (.inr (.inr (.inr (.inl i))))))
    | .rdreg n => .inr (.inr (.inr (.inr (.inr (.inr (.inr (.inl n)))))))
    | .clr => .inr (.inr (.inr (.inr (.inr (.inr (.inr (.inr ())))))))
  invFun
    | .inl () => .nop
    | .inr (.inl d) => .setw d
    | .inr (.inr (.inl d)) => .seth d
    | .inr (.inr (.inr (.inl ()))) => .start
    | .inr (.inr (.inr (.inr (.inl (r, g, b))))) => .pix r g b
    | .inr (.inr (.inr (.inr (.inr (.inl (r, g, b)))))) => .qry r g b
    | .inr (.inr (.inr (.inr (.inr (.inr (.inl i)))))) => .palrd i
    | .inr (.inr (.inr (.inr (.inr (.inr (.inr (.inl n))))))) => .rdreg n
    | .inr (.inr (.inr (.inr (.inr (.inr (.inr (.inr ()))))))) => .clr
  left_inv i := by cases i <;> rfl
  right_inv o := by
    obtain _ | _ | _ | _ | ⟨_, _, _⟩ | ⟨_, _, _⟩ | _ | _ | _ := o <;> rfl

theorem card_bitVec (n : Nat) : Nat.card (BitVec n) = 2 ^ n :=
  Nat.card_eq_of_equiv_fin BitVec.equivFin.toEquiv

theorem card_instr : Nat.card Instr = 33685531 := by
  have hreg : Nat.card Reg = 2 ^ 3 := by rw [Nat.card_congr regEquivNum, card_bitVec]
  have : Finite Reg := Finite.of_equiv _ regEquivNum.symm
  rw [Nat.card_congr instrEquivOperands]
  simp only [Operands, Nat.card_sum, Nat.card_prod, card_bitVec, hreg, Nat.card_unique]; norm_num

/-- Settles O6: the legal words are the words of the commands, one for each. -/
theorem legalWordsCounted : Obligations.LegalWordsCounted := by
  have hrange : {w : Word32 | ∃ i, decode w = .ok i} = Set.range encode := by
    ext w; simp only [Set.mem_ofPred_eq, decode_ok_iff, Set.mem_range]
  rw [Obligations.LegalWordsCounted, hrange, Set.ncard_range_of_injective encode_injective, card_instr]

end Sys2Proof
end

section
/-! PROOFS. Which step changes RSP (R101). -/

namespace Sys2Proof.Machine

/-- Settles O33: the rule of the head word pushes the word's response, which only a read has. -/
theorem onlyReadsRespond : Obligations.OnlyReadsRespond := by
  intro s t h hne
  cases hen : s.enabled with
  | false =>
    rw [step_of_not_enabled hen] at h; cases h
    exact absurd rfl hne
  | true =>
    rw [step_of_enabled hen] at h; cases h
    cases hcmd : s.cmd with
    | nil => exact absurd (by rw [unheldStep_of_cmd_nil hcmd]) hne
    | cons w rest =>
      rw [unheldStep_of_cmd_cons hcmd, wordRule_rsp] at hne ⊢
      obtain ⟨v, hv⟩ : ∃ v, wordResponse w s = some v := by
        refine Option.ne_none_iff_exists'.1 fun hnone => hne ?_
        rw [hnone, Option.toList_none, List.append_nil]
      have hpushes : wordPushesRsp w = true := by rw [← wordResponse_isSome w s, hv]; rfl
      exact ⟨w, rest, v, rfl, by rw [hv]; rfl, (wordPushesRsp_iff w).1 hpushes⟩

end Sys2Proof.Machine
end

section
/-! PROOFS. The assembler (R105, R106): what `assemble` answers, and the word of each line as the number R105 gives. -/

namespace Sys2Proof

/-! The word of a command whose operands are in range, written as plain numbers. -/

theorem encode_setw_ofNat {d : Nat} (hd : d ≤ 65535) :
    encode (.setw (BitVec.ofNat 16 d)) = BitVec.ofNat 32 (0x10000000 + d) := by
  apply BitVec.eq_of_toNat_eq
  rw [encode_setw_toNat, BitVec.toNat_ofNat, BitVec.toNat_ofNat]; omega

theorem encode_seth_ofNat {d : Nat} (hd : d ≤ 65535) :
    encode (.seth (BitVec.ofNat 16 d)) = BitVec.ofNat 32 (0x20000000 + d) := by
  apply BitVec.eq_of_toNat_eq
  rw [encode_seth_toNat, BitVec.toNat_ofNat, BitVec.toNat_ofNat]; omega

theorem encode_pix_ofNat {r g b : Nat} (hr : r ≤ 255) (hg : g ≤ 255) (hb : b ≤ 255) :
    encode (.pix (BitVec.ofNat 8 r) (BitVec.ofNat 8 g) (BitVec.ofNat 8 b)) =
      BitVec.ofNat 32 (0x40000000 + r * 2 ^ 16 + g * 2 ^ 8 + b) := by
  apply BitVec.eq_of_toNat_eq
  rw [encode_pix_toNat]; simp only [BitVec.toNat_ofNat]; omega

theorem encode_qry_ofNat {r g b : Nat} (hr : r ≤ 255) (hg : g ≤ 255) (hb : b ≤ 255) :
    encode (.qry (BitVec.ofNat 8 r) (BitVec.ofNat 8 g) (BitVec.ofNat 8 b)) =
      BitVec.ofNat 32 (0x50000000 + r * 2 ^ 16 + g * 2 ^ 8 + b) := by
  apply BitVec.eq_of_toNat_eq
  rw [encode_qry_toNat]; simp only [BitVec.toNat_ofNat]; omega

theorem encode_palrd_ofNat {i : Nat} (hi : i ≤ 15) :
    encode (.palrd (BitVec.ofNat 4 i)) = BitVec.ofNat 32 (0x60000000 + i) := by
  apply BitVec.eq_of_toNat_eq
  rw [encode_palrd_toNat, BitVec.toNat_ofNat, BitVec.toNat_ofNat]; omega

theorem encode_rdreg_ofNat {n : Nat} (hn : n ≤ 7) :
    encode (.rdreg (regOfNum (BitVec.ofNat 3 n))) = BitVec.ofNat 32 (0x70000000 + n) := by
  apply BitVec.eq_of_toNat_eq
  rw [encode_rdreg_toNat, num_regOfNum, BitVec.toNat_ofNat, BitVec.toNat_ofNat]; omega

end Sys2Proof

namespace Sys2Proof.Machine

/-- An operand out of its range is an assembler error (R105). -/
theorem assemble_of_not_wellFormed {line : AsmLine} (h : line.wellFormed = false) : assemble line = none := by
  rw [assemble, h]; rfl

/-- A line in range gives the words of its expansion (R106). -/
theorem assemble_of_wellFormed {line : AsmLine} (h : line.wellFormed = true) :
    assemble line = (expandPseudo line).mapM lineWord := if_pos h

/-- A line of R105 in range gives its one word. -/
theorem assemble_of_lineWord {line : AsmLine} {w : Word32} (h : line.wellFormed = true)
    (hself : expandPseudo line = [line]) (hword : lineWord line = some w) : assemble line = some [w] := by
  rw [assemble_of_wellFormed h, hself, List.mapM_cons, hword]; rfl

/-- Settles O56: per line its word in range, and the failing range check out of it. -/
theorem assemblerWords : Obligations.AssemblerWords := by
  refine ⟨rfl, rfl, rfl, fun d => ⟨fun hd => ⟨?_, ?_⟩, fun hd => ⟨?_, ?_⟩⟩,
    fun r g b => ⟨fun hr hg hb => ⟨?_, ?_⟩, fun h => ⟨?_, ?_⟩⟩,
    fun i => ⟨fun hi => ?_, fun hi => ?_⟩, fun n => ⟨fun hn => ?_, fun hn => ?_⟩,
    fun v => ⟨fun hv => ?_, fun hv => ?_⟩⟩
  · exact assemble_of_lineWord (decide_eq_true hd) rfl (congrArg some (encode_setw_ofNat hd))
  · exact assemble_of_lineWord (decide_eq_true hd) rfl (congrArg some (encode_seth_ofNat hd))
  · exact assemble_of_not_wellFormed (decide_eq_false (by omega))
  · exact assemble_of_not_wellFormed (decide_eq_false (by omega))
  · exact assemble_of_lineWord (by simp [AsmLine.wellFormed, hr, hg, hb]) rfl
      (congrArg some (encode_pix_ofNat hr hg hb))
  · exact assemble_of_lineWord (by simp [AsmLine.wellFormed, hr, hg, hb]) rfl
      (congrArg some (encode_qry_ofNat hr hg hb))
  · exact assemble_of_not_wellFormed (by simp [AsmLine.wellFormed]; omega)
  · exact assemble_of_not_wellFormed (by simp [AsmLine.wellFormed]; omega)
  · exact assemble_of_lineWord (decide_eq_true hi) rfl (congrArg some (encode_palrd_ofNat hi))
  · exact assemble_of_not_wellFormed (decide_eq_false (by omega))
  · exact assemble_of_lineWord (decide_eq_true hn) rfl (congrArg some (encode_rdreg_ofNat hn))
  · exact assemble_of_not_wellFormed (decide_eq_false (by omega))
  · exact assemble_of_lineWord (decide_eq_true hv) rfl rfl
  · exact assemble_of_not_wellFormed (decide_eq_false (by omega))

theorem assemble_convert {w h : Nat} (hw : w ≤ 65535) (hh : h ≤ 65535) :
    assemble (.convert w h) =
      some [BitVec.ofNat 32 (0x10000000 + w), BitVec.ofNat 32 (0x20000000 + h), 0x30000000] := by
  have hwf : (AsmLine.convert w h).wellFormed = true := by simp [AsmLine.wellFormed, hw, hh]
  rw [assemble_of_wellFormed hwf, ← encode_setw_ofNat hw, ← encode_seth_ofNat hh]; rfl

/-- The three components of a PIXHEX value make up the value again. -/
theorem assemble_pixhex {v : Nat} (hv : v < 2 ^ 24) :
    assemble (.pixhex v) = some [BitVec.ofNat 32 (0x40000000 + v)] := by
  have hparts : 0x40000000 + v =
      0x40000000 + v / 65536 % 256 * 2 ^ 16 + v / 256 % 256 * 2 ^ 8 + v % 256 := by omega
  rw [assemble_of_wellFormed (line := .pixhex v) (decide_eq_true hv), hparts,
    ← encode_pix_ofNat (by omega) (by omega) (by omega)]
  rfl

/-- Settles O57: the two expansions with operands above; the other two lines are single words. -/
theorem pseudoInstructionsExpand : Obligations.PseudoInstructionsExpand :=
  ⟨fun _ _ => assemble_convert, rfl, rfl, fun _ => assemble_pixhex⟩

end Sys2Proof.Machine
end

section
/-! PROOFS. The distance of a colour to a palette entry (R135) and the distances between the entries (R130, R132). -/

namespace Sys2Proof.Machine

/-- The squared difference is the square in the integers: nothing wraps (R135). -/
theorem diffSquared_cast (a b : Comp) : (diffSquared a b : Int) = ((a.toNat : Int) - b.toNat) ^ 2 := by
  rw [diffSquared, Int.natCast_pow, Int.natAbs_sq]

/-- The range of one component's difference and of its square (R135). -/
theorem component_difference_range (a b : Comp) :
    -255 ≤ (a.toNat : Int) - b.toNat ∧ (a.toNat : Int) - b.toNat ≤ 255 ∧
    0 ≤ ((a.toNat : Int) - b.toNat) ^ 2 ∧ ((a.toNat : Int) - b.toNat) ^ 2 ≤ 65025 := by
  have ha := a.isLt
  have hb := b.isLt
  have hlo : -255 ≤ (a.toNat : Int) - b.toNat := by omega
  have hhi : (a.toNat : Int) - b.toNat ≤ 255 := by omega
  exact ⟨hlo, hhi, sq_nonneg _, sq_le_sq' hlo hhi⟩

theorem diffSquared_le (a b : Comp) : diffSquared a b ≤ 65025 := by
  obtain ⟨-, -, -, hsq⟩ := component_difference_range a b
  rw [← diffSquared_cast] at hsq
  exact_mod_cast hsq

theorem diffSquared_eq_zero_iff (a b : Comp) : diffSquared a b = 0 ↔ a = b := by
  rw [diffSquared, pow_eq_zero_iff two_ne_zero, Int.natAbs_eq_zero, sub_eq_zero, Int.natCast_inj, BitVec.toNat_inj]

theorem distance_le (p : Rgb) (i : PalIndex) : distance p i ≤ 195075 := by
  have hr := diffSquared_le p.r (palette i).r
  have hg := diffSquared_le p.g (palette i).g
  have hb := diffSquared_le p.b (palette i).b
  rw [distance]; omega

/-- Only the entry's own colour is at distance 0. -/
theorem distance_eq_zero_iff (p : Rgb) (i : PalIndex) : distance p i = 0 ↔ p = palette i := by
  rw [distance, Nat.add_eq_zero_iff, Nat.add_eq_zero_iff, diffSquared_eq_zero_iff, diffSquared_eq_zero_iff,
    diffSquared_eq_zero_iff, and_assoc]
  exact ⟨fun ⟨hr, hg, hb⟩ => by cases p; simp_all, fun h => by simp [h]⟩

@[simp] theorem distance_palette_self (i : PalIndex) : distance (palette i) i = 0 := (distance_eq_zero_iff _ _).2 rfl

/-- Settles O9: the integer form of each squared difference, and its range. -/
theorem distanceInTheIntegers : Obligations.DistanceInTheIntegers := by
  intro p i
  refine ⟨?_, ?_, distance_le p i⟩
  · rw [distance, Int.natCast_add, Int.natCast_add, diffSquared_cast, diffSquared_cast, diffSquared_cast]
  · simp only [List.forall_mem_cons]
    exact ⟨component_difference_range _ _, component_difference_range _ _, component_difference_range _ _, by simp⟩

/-- Settles O7: the table, entry by entry. -/
theorem paletteEntriesAsPrinted : Obligations.PaletteEntriesAsPrinted := by
  unfold Obligations.PaletteEntriesAsPrinted; decide

/-- Entries 2 and 10 are the only two within 324 of one another (R132): all pairs are compared. -/
theorem palette_pair_distance : ∀ i j : PalIndex, i ≠ j →
    ((i = 2 ∧ j = 10 ∨ i = 10 ∧ j = 2) ∧ distance (palette i) j = 324) ∨ 324 < distance (palette i) j := by
  decide

theorem le_palette_pair_distance {i j : PalIndex} (h : i ≠ j) : 324 ≤ distance (palette i) j := by
  obtain ⟨-, heq⟩ | hlt := palette_pair_distance i j h <;> omega

theorem palette_injective : Function.Injective palette := by
  intro i j h
  by_contra hne
  have hdist := le_palette_pair_distance hne
  rw [h, distance_palette_self] at hdist
  omega

/-- Settles O8: the comparison of all pairs, and distance 0 as equality of colours. -/
theorem paletteEntriesApart : Obligations.PaletteEntriesApart := by
  refine ⟨fun i j => palette_injective.ne, by decide, fun i j hne h h' => ?_,
    fun i j => ⟨distance_palette_self i, le_palette_pair_distance⟩⟩
  obtain ⟨hpair, -⟩ | hlt := palette_pair_distance i j hne
  · exact absurd hpair (not_or.2 ⟨h, h'⟩)
  · exact hlt

end Sys2Proof.Machine
end

section
/-! PROOFS. `nearest` (R134 to R142): the scan of R136 is the library's `List.argmin` over the indices, whose first
minimum is the characterisation of R139; the laws of R140 follow from that. -/

namespace Sys2Proof.Machine

/-- A first entry closer than the initial distance becomes the best so far. -/
theorem scanNearest_cons_of_lt {p : Rgb} {i : PalIndex} {bestD : Nat} (h : distance p i < bestD)
    (rest : List PalIndex) (bestI : PalIndex) :
    scanNearest p (i :: rest) bestD bestI = scanNearest p rest (distance p i) i := if_pos h

/-- Whatever initial distance no entry can reach, the scan starts from entry 0 (R137). -/
theorem scanNearest_of_unreachable {p : Rgb} {inf : Nat} (hinf : 195075 < inf) :
    scanNearest p paletteIndices inf 0 = scanNearest p paletteIndices.tail (distance p 0) 0 :=
  scanNearest_cons_of_lt ((distance_le p 0).trans_lt hinf) _ _

theorem nearest_eq_scan_tail (p : Rgb) : nearest p = scanNearest p paletteIndices.tail (distance p 0) 0 :=
  scanNearest_of_unreachable (by decide)

/-- Settles O10: both scans come to the one that starts from entry 0. -/
theorem infiniteDistanceUnobservable : Obligations.InfiniteDistanceUnobservable :=
  ⟨fun p i => ⟨distance_le p i, (distance_le p i).trans_lt (by decide)⟩, by decide, by decide, by decide,
    fun p _ hinf => (scanNearest_of_unreachable hinf).trans (nearest_eq_scan_tail p).symm,
    fun p => (nearest_eq_scan_tail p).symm⟩

/-- The scan from a best index is the fold of `List.argmin` from it: both replace the best on `<` only. -/
theorem foldl_argAux_eq_scanNearest (p : Rgb) (l : List PalIndex) (best : PalIndex) :
    l.foldl (List.argAux fun i j => distance p i < distance p j) (some best) =
      some (scanNearest p l (distance p best) best) := by
  induction l generalizing best with
  | nil => rfl
  | cons i rest ih =>
    simp only [List.foldl_cons, List.argAux, scanNearest]
    by_cases h : distance p i < distance p best <;> simp [h, ih]

theorem argmin_distance (p : Rgb) : paletteIndices.argmin (distance p) = some (nearest p) :=
  (foldl_argAux_eq_scanNearest p paletteIndices.tail 0).trans (congrArg some (nearest_eq_scan_tail p).symm)

theorem mem_paletteIndices : ∀ i : PalIndex, i ∈ paletteIndices := by decide

/-- The scan meets the indices in their order. -/
theorem idxOf_paletteIndices : ∀ i : PalIndex, paletteIndices.idxOf i = i.toNat := by decide

/-- `nearest` is the first of the indices at the least distance (R138, R139). -/
theorem nearest_eq_iff (p : Rgb) (n : PalIndex) :
    nearest p = n ↔
      (∀ j, distance p n ≤ distance p j) ∧ ∀ j, distance p j ≤ distance p n → n.toNat ≤ j.toNat := by
  have h := List.argmin_eq_some_iff (f := distance p) (l := paletteIndices) (m := n)
  simpa [argmin_distance, mem_paletteIndices, idxOf_paletteIndices] using h

theorem distance_nearest_le (p : Rgb) (j : PalIndex) : distance p (nearest p) ≤ distance p j :=
  ((nearest_eq_iff p _).1 rfl).1 j

/-- Ties go to the lowest index (R138). -/
theorem nearest_le_of_distance_le {p : Rgb} {j : PalIndex} (h : distance p j ≤ distance p (nearest p)) :
    (nearest p).toNat ≤ j.toNat :=
  ((nearest_eq_iff p _).1 rfl).2 j h

/-- An entry's own colour is at distance 0 from that entry alone. -/
theorem nearest_palette (i : PalIndex) : nearest (palette i) = i := by
  have hzero : distance (palette i) (nearest (palette i)) = 0 := by
    have hle := distance_nearest_le (palette i) i
    rwa [distance_palette_self, Nat.le_zero] at hle
  exact (palette_injective ((distance_eq_zero_iff _ _).1 hzero)).symm

/-- Settles O11: `nearest_eq_iff` with the order of the indices read the other way round. -/
theorem nearestIsFirstMinimum : Obligations.NearestIsFirstMinimum := by
  intro p n
  rw [nearest_eq_iff]
  exact and_congr_right fun _ => forall_congr' fun _ => by rw [← not_imp_not, not_le, not_le]

/-- Settles O12: a colour between entries 0 and 1 shows the loss of (e). -/
theorem nearestLaws : Obligations.NearestLaws :=
  ⟨nearest_palette, fun p => Nat.le_of_lt_succ (nearest p).isLt, distance_nearest_le,
    fun p _ hmin => nearest_le_of_distance_le (hmin (nearest p)), ⟨94, 0, 0⟩, by decide⟩

/-- Settles O13: the scan and the two distances, row by row. -/
theorem tiesOfTheTable : Obligations.TiesOfTheTable := by
  unfold Obligations.TiesOfTheTable; decide

end Sys2Proof.Machine
end

section
/-! PROOFS. The commands of the Palette, QRY and PALRD (R144, R145): a word whose opcode byte or opcode and reserved
field stands above its operands, and a response pushed in any state, held while RSP is full (R43). -/

namespace Sys2Proof

/-- A colour under the eight bits above it, component by component (R97, R103). -/
theorem append_rgbBits (hi : BitVec 8) (p : Rgb) : hi ++ rgbBits p = (hi ++ p.r ++ p.g ++ p.b : Word32) := by
  apply BitVec.eq_of_toNat_eq
  rw [append_toNat hi (rgbBits p), rgbBits_toNat, append_toNat (hi ++ p.r ++ p.g) p.b,
    append_toNat (hi ++ p.r) p.g, append_toNat hi p.r]
  omega

theorem decode_qryWord (r g b : Comp) : decode (0x50#8 ++ r ++ g ++ b) = .ok (.qry r g b) :=
  (congrArg decode (append_rgbBits 0x50#8 ⟨r, g, b⟩)).symm.trans (decode_encode (.qry r g b))

theorem decode_palrdWord (i : PalIndex) : decode (0x6000000#28 ++ i) = .ok (.palrd i) := decode_encode (.palrd i)

end Sys2Proof

namespace Sys2Proof.Machine

/-- The response of QRY is the index, zero-extended (R102). -/
theorem indexWord_eq_setWidth (i : PalIndex) : indexWord i = i.setWidth 32 := by
  apply BitVec.eq_of_toNat_eq
  rw [indexWord, append_toNat 0#28 i, BitVec.toNat_setWidth_of_le (by decide)]; simp

/-- The response of PALRD is the entry under eight zero bits (R103). -/
theorem colourWord_eq_append (p : Rgb) : colourWord p = 0#8 ++ p.r ++ p.g ++ p.b := append_rgbBits 0#8 p

/-- With room in RSP a command that answers takes its word and pushes its response (R43, R101). -/
theorem whenRoom_respond_of_room {s : State} (h : s.rsp.length < Config.rspDepth) (v : Word32) :
    whenRoom s.rspHasRoom (s.respond v) s = .next { s with cmd := s.cmd.tail, rsp := s.rsp ++ [v] } := by
  rw [s.rspHasRoom_iff.2 h]; rfl

/-- With RSP full a command that answers is held (R43). -/
theorem whenRoom_rsp_of_full {s : State} (h : Config.rspDepth ≤ s.rsp.length) (t : State) :
    whenRoom s.rspHasRoom t s = .next s := by
  have hroom : s.rspHasRoom = false := by
    rw [← Bool.not_eq_true, State.rspHasRoom_iff]; omega
  rw [hroom]; rfl

theorem exec_qry (r g b : Comp) (s : State) :
    exec (.qry r g b) s = whenRoom s.rspHasRoom (s.respond (indexWord (nearest ⟨r, g, b⟩))) s := rfl

theorem exec_palrd (i : PalIndex) (s : State) :
    exec (.palrd i) s = whenRoom s.rspHasRoom (s.respond (colourWord (palette i))) s := rfl

/-- Settles O20: the response is pushed with room and held without, and `nearest` is as R140 and R142 say. -/
theorem qryCommand : Obligations.QryCommand := by
  refine ⟨decode_qryWord, fun r g b s hroom => ?_, fun r g b s hfull => ?_, nearest_palette,
    decode_qryWord 94 0 0, by decide, decode_qryWord 95 0 0, by decide⟩
  · rw [exec_qry, whenRoom_respond_of_room hroom, indexWord_eq_setWidth]
  · rw [exec_qry, whenRoom_rsp_of_full hfull]

/-- Settles O21: the response is pushed with room and held without; the sixteen responses are the table's. -/
theorem palrdCommand : Obligations.PalrdCommand := by
  refine ⟨decode_palrdWord, fun i s hroom => ?_, fun i s hfull => ?_, by decide⟩
  · rw [exec_palrd, whenRoom_respond_of_room hroom, colourWord_eq_append]
  · rw [exec_palrd, whenRoom_rsp_of_full hfull]

end Sys2Proof.Machine
end

section
/-! PROOFS. `convert` byte by byte (R160, R165, R168): each loop of the reference function is a map over a range, and
the rows together are one map over the numbers of the bytes. -/

namespace Sys2Proof.Machine

/-- The byte of pair `j` of row `y`: the pixel at column `2 * j` and its right neighbour, or the filler (R163, R164). -/
def pairByte (grid : Nat → Nat → Rgb) (w y j : Nat) : Byte :=
  packByte (nearest (grid (2 * j) y)) (if 2 * j + 1 < w then nearest (grid (2 * j + 1) y) else 0)

/-- Byte `n` of a conversion: pair `n mod ceil(W/2)` of row `n div ceil(W/2)` (R168). -/
def convertByte (grid : Nat → Nat → Rgb) (w n : Nat) : Byte := pairByte grid w (n / rowBytes w) (n % rowBytes w)

/-- The loop of R160 from an even column, with fuel for the pairs of the row that are left. -/
theorem convertPairs_eq_map (grid : Nat → Nat → Rgb) (w y : Nat) {fuel j : Nat} (hfuel : rowBytes w ≤ j + fuel) :
    convertPairs grid w y fuel (2 * j) = (List.range' j (rowBytes w - j)).map (pairByte grid w y) := by
  induction fuel generalizing j with
  | zero => rw [Nat.sub_eq_zero_of_le (show rowBytes w ≤ j from hfuel)]; rfl
  | succ fuel ih =>
    rw [convertPairs]
    split
    case isTrue hlt =>
      have hpairs : rowBytes w - j = rowBytes w - (j + 1) + 1 := by unfold rowBytes; omega
      rw [hpairs, List.range'_succ, List.map_cons, ← ih (by omega)]; rfl
    case isFalse hge =>
      have hpairs : rowBytes w - j = 0 := by unfold rowBytes; omega
      rw [hpairs]; rfl

theorem convertRow_eq_map (grid : Nat → Nat → Rgb) (w y : Nat) :
    convertRow grid w y = (List.range (rowBytes w)).map (pairByte grid w y) := by
  have hfuel : rowBytes w ≤ 0 + w := by unfold rowBytes; omega
  rw [List.range_eq_range']
  exact convertPairs_eq_map grid w y hfuel

/-- Byte `m` of `n` rows from `y` on stands in row `y + m div ceil(W/2)`. -/
theorem convertRows_eq_map (grid : Nat → Nat → Rgb) (w n y : Nat) :
    convertRows grid w n y =
      (List.range (n * rowBytes w)).map fun m => pairByte grid w (y + m / rowBytes w) (m % rowBytes w) := by
  induction n generalizing y with
  | zero => rw [Nat.zero_mul]; rfl
  | succ n ih =>
    rw [convertRows, ih, convertRow_eq_map, Nat.succ_mul, Nat.add_comm (n * rowBytes w), List.range_add,
      List.map_append, List.map_map]
    congr 1
    · refine List.map_congr_left fun m hm => ?_
      have hlt := List.mem_range.1 hm
      rw [Nat.div_eq_of_lt hlt, Nat.mod_eq_of_lt hlt, Nat.add_zero]
    · refine List.map_congr_left fun m hm => ?_
      have hpos : 0 < rowBytes w := Nat.pos_of_mul_pos_left (Nat.zero_lt_of_lt (List.mem_range.1 hm))
      rw [Function.comp, Nat.add_div_left m hpos, Nat.add_mod_left, Nat.add_assoc, Nat.add_comm 1]

theorem convert_eq_map (grid : Nat → Nat → Rgb) (w h : Nat) :
    convert grid w h = (List.range (h * rowBytes w)).map (convertByte grid w) := by
  rw [convert, convertRows_eq_map]
  simp only [Nat.zero_add]; rfl

/-- R165. -/
theorem convert_length (grid : Nat → Nat → Rgb) (w h : Nat) : (convert grid w h).length = h * rowBytes w := by
  rw [convert_eq_map, List.length_map, List.length_range]

theorem convert_getElem? (grid : Nat → Nat → Rgb) {w h n : Nat} (hn : n < h * rowBytes w) :
    (convert grid w h)[n]? = some (convertByte grid w n) := by
  rw [convert_eq_map, List.getElem?_map, List.getElem?_range hn]; rfl

/-- Settles O48: the conversion is one map over the numbers of its bytes. -/
theorem convertBytes : Obligations.ConvertBytes :=
  fun grid w h => ⟨convert_length grid w h, fun _ hn => convert_getElem? grid hn⟩

/-- Settles O14: the four readings of the concatenation, over the 256 pairs of indices. -/
theorem byteComposition : Obligations.ByteComposition := by
  unfold Obligations.ByteComposition
  decide

/-- The index fits its nibble, so the mask of R164 may be left out. -/
theorem packByte_eq_or : ∀ left right : PalIndex,
    packByte left right = left.setWidth 8 <<< 4 ||| right.setWidth 8 := by
  decide

theorem convert_three_one (grid : Nat → Nat → Rgb) : convert grid 3 1 =
    [packByte (nearest (grid 0 0)) (nearest (grid 1 0)), packByte (nearest (grid 2 0)) 0] := rfl

theorem convert_two_one (grid : Nat → Nat → Rgb) :
    convert grid 2 1 = [packByte (nearest (grid 0 0)) (nearest (grid 1 0))] := rfl

theorem convert_two_two (grid : Nat → Nat → Rgb) : convert grid 2 2 =
    [packByte (nearest (grid 0 0)) (nearest (grid 1 0)), packByte (nearest (grid 0 1)) (nearest (grid 1 1))] := rfl

theorem nearest_black : nearest ⟨0, 0, 0⟩ = 0 := nearest_palette 0

theorem nearest_white : nearest ⟨255, 255, 255⟩ = 15 := nearest_palette 15

/-- Settles O49: the pairs of the three grids, with black and white the palette's own colours (R140). -/
theorem convertExamples : Obligations.ConvertExamples := by
  refine ⟨fun grid => ?_, fun grid hleft hright => ?_, fun grid hblack => ?_⟩
  · rw [convert_three_one, packByte_eq_or, packByte_eq_or]; rfl
  · rw [convert_two_one, hleft, hright, nearest_black, nearest_white]; rfl
  · rw [convert_two_two]
    simp only [hblack, nearest_black]; rfl

end Sys2Proof.Machine
end

section
/-! PROOFS. Quiet words may stand anywhere (R177): RSP steers nothing, so a quiet word, which changes RSP alone, can be
taken out. -/

namespace Sys2Proof.Machine

/-- The state with other words in CMD. -/
def State.withCmd (ws : List Word32) (s : State) : State := { s with cmd := ws }

/-- The state with other words in RSP. -/
def State.withRsp (vs : List Word32) (s : State) : State := { s with rsp := vs }

/-- What RSP holds shows in nothing but RSP once CMD is executed (R40). -/
theorem State.drained_withRsp (us vs : List Word32) (s : State) :
    (s.withRsp us).drained.withRsp vs = s.drained.withRsp vs := by
  have forget (us : List Word32) : (s.withRsp us).drained.withRsp vs = (s.withRsp []).drained.withRsp vs := by
    have hframed : s.withRsp us = (s.withRsp []).framed [] [] us := by
      simp [State.framed, State.withRsp]
    have hempty : ((s.withRsp []).drained.framed [] [] us).cmd = [] := by
      rw [State.framed_cmd, State.drained_cmd]; rfl
    rw [hframed, State.drained_framed, State.drained_of_cmd_nil hempty]
    simp [State.framed, State.withRsp]
  exact (forget us).trans (forget s.rsp).symm

/-- The rule of the head word does not depend on the words behind it (R10). -/
theorem wordRule_withCmd_cons (w : Word32) (ws : List Word32) (s : State) :
    wordRule w (s.withCmd (w :: ws)) = (wordRule w (s.withCmd [w])).withCmd ws := by
  have hframed : s.withCmd (w :: ws) = (s.withCmd [w]).framed ws [] [] := rfl
  have hempty : (wordRule w (s.withCmd [w])).cmd = [] := wordRule_cmd_of_cmd_cons rfl
  rw [hframed, wordRule_framed ws [] [] w (List.cons_ne_nil w []), State.framed, hempty]; rfl

/-- The rule of a quiet word takes the word and may push a response (R177). -/
theorem wordRule_of_isQuiet {w : Word32} (hquiet : isQuiet w = true) (s : State) :
    ∃ vs, wordRule w s = (s.withCmd s.cmd.tail).withRsp vs := by
  obtain ⟨i, hdec, hi⟩ := (isQuiet_iff w).1 hquiet
  refine ⟨(ruleOf i s).rsp, ?_⟩
  rw [wordRule_of_decode_ok hdec, ← (ruleOf_cmd_rsp i s).1]
  exact congrArg (fun t => (t.withCmd (ruleOf i s).cmd).withRsp (ruleOf i s).rsp)
    (ruleOf_frame_of_isQuietCommand hi s)

/-- R177 for the words in CMD, word by word. -/
theorem State.drained_filter_not_isQuiet (vs ws : List Word32) (s : State) :
    (s.withCmd ws).drained.withRsp vs = (s.withCmd (ws.filter fun w => !isQuiet w)).drained.withRsp vs := by
  induction ws generalizing s with
  | nil => rfl
  | cons w ws ih =>
    rw [State.drained_of_cmd_cons (s := s.withCmd (w :: ws)) rfl]
    cases hquiet : isQuiet w with
    | true =>
      obtain ⟨us, hrule⟩ := wordRule_of_isQuiet hquiet (s.withCmd (w :: ws))
      rw [hrule, State.drained_withRsp, List.filter_cons_of_neg (by simp [hquiet])]
      exact ih s
    | false =>
      rw [List.filter_cons_of_pos (by simp [hquiet]), wordRule_withCmd_cons, ih, ← wordRule_withCmd_cons,
        State.drained_of_cmd_cons (s := s.withCmd (w :: _)) rfl]

/-- Settles O51: the words in CMD with and without the quiet ones. -/
theorem quietCommandsInterleave : Obligations.QuietCommandsInterleave :=
  fun s ws => State.drained_filter_not_isQuiet s.rsp ws s

end Sys2Proof.Machine
end

section
/-! PROOFS. The commands of the Packer in each sequencer state (R171 to R175). A rule is one equation per state; the
meaning of SETW, SETH and START is the rule, and that of PIX is the rule where the beat pushes nothing or OUT has
room (R43). -/

namespace Sys2Proof.Machine

theorem exec_setw (d : Dim) (s : State) : exec (.setw d) s = .next (ruleSetw d s) := rfl

theorem ruleSetw_of_idle {s : State} (h : s.seq = .idle) (d : Dim) : ruleSetw d s = { s.popCmd with width := d } := by
  simp only [ruleSetw, h]

theorem ruleSetw_of_run {s : State} (h : s.seq = .run) (d : Dim) :
    ruleSetw d s = s.takeFault .underrun (encode (.setw d)) := by
  simp only [ruleSetw, h]

theorem ruleSetw_of_fault {s : State} (h : s.seq = .fault) (d : Dim) : ruleSetw d s = s.popCmd := by
  simp only [ruleSetw, h, State.discard_eq]

theorem exec_seth (d : Dim) (s : State) : exec (.seth d) s = .next (ruleSeth d s) := rfl

theorem ruleSeth_of_idle {s : State} (h : s.seq = .idle) (d : Dim) : ruleSeth d s = { s.popCmd with height := d } := by
  simp only [ruleSeth, h]

theorem ruleSeth_of_run {s : State} (h : s.seq = .run) (d : Dim) :
    ruleSeth d s = s.takeFault .underrun (encode (.seth d)) := by
  simp only [ruleSeth, h]

theorem ruleSeth_of_fault {s : State} (h : s.seq = .fault) (d : Dim) : ruleSeth d s = s.popCmd := by
  simp only [ruleSeth, h, State.discard_eq]

theorem exec_start (s : State) : exec .start s = .next (ruleStart s) := rfl

theorem ruleStart_of_run {s : State} (h : s.seq = .run) : ruleStart s = s.takeFault .underrun (encode .start) := by
  simp only [ruleStart, h]

theorem ruleStart_of_fault {s : State} (h : s.seq = .fault) : ruleStart s = s.popCmd := by
  simp only [ruleStart, h, State.discard_eq]

theorem State.badDimension_iff (s : State) : s.badDimension = true ↔ s.width = 0 ∨ s.height = 0 := by
  simp [State.badDimension]

theorem State.badDimension_eq_false {s : State} (hw : s.width ≠ 0) (hh : s.height ≠ 0) : s.badDimension = false :=
  Bool.eq_false_iff.2 (mt s.badDimension_iff.1 (not_or.2 ⟨hw, hh⟩))

theorem ruleStart_of_badDimension {s : State} (h : s.seq = .idle) (hdim : s.badDimension = true) :
    ruleStart s = s.takeFault .baddim (encode .start) := by
  simp only [ruleStart, h, hdim, if_true]

/-- An accepted START opens a run (R173). -/
theorem ruleStart_of_idle {s : State} (h : s.seq = .idle) (hdim : s.badDimension = false) :
    ruleStart s = s.popCmd.openRun := by
  simp only [ruleStart, h, hdim]; rfl

/-- START in IDLE with a zero dimension is BADDIM (R173, R225). -/
theorem exec_start_badDimension {s : State} (h : s.seq = .idle) (hdim : s.width = 0 ∨ s.height = 0) :
    exec .start s = .next { s with cmd := s.cmd.tail, seq := .fault, cause := .baddim, fcmd := 0x30000000 } := by
  rw [exec_start, ruleStart_of_badDimension h (s.badDimension_iff.2 hdim)]; rfl

/-- Settles O16: the rule in each state, and the START after a width of 0. -/
theorem setwCommand : Obligations.SetwCommand := by
  refine ⟨fun d => decode_encode (.setw d), fun d s h => ?_, fun d s h => ?_, fun d s h => ?_, fun s t h hset => ?_,
    decode_encode (.setw 320)⟩
  · rw [exec_setw, ruleSetw_of_idle h]; rfl
  · rw [exec_setw, ruleSetw_of_run h]; rfl
  · rw [exec_setw, ruleSetw_of_fault h]; rfl
  · rw [exec_setw, ruleSetw_of_idle h] at hset
    cases hset
    exact exec_start_badDimension h (.inl rfl)

/-- Settles O17: the rule in each state, and the START after a height of 0. -/
theorem sethCommand : Obligations.SethCommand := by
  refine ⟨fun d => decode_encode (.seth d), fun d s h => ?_, fun d s h => ?_, fun d s h => ?_, fun s t h hset => ?_,
    decode_encode (.seth 180)⟩
  · rw [exec_seth, ruleSeth_of_idle h]; rfl
  · rw [exec_seth, ruleSeth_of_run h]; rfl
  · rw [exec_seth, ruleSeth_of_fault h]; rfl
  · rw [exec_seth, ruleSeth_of_idle h] at hset
    cases hset
    exact exec_start_badDimension h (.inr rfl)

/-- Settles O18: the rule in each state; the example is the first of them. -/
theorem startCommand : Obligations.StartCommand := by
  refine ⟨decode_encode .start, fun s h hw hh => ?_, fun s h hdim => exec_start_badDimension h hdim, fun s h => ?_,
    fun s h => ?_, fun t hstart => ?_⟩
  · rw [exec_start, ruleStart_of_idle h (State.badDimension_eq_false hw hh)]; rfl
  · rw [exec_start, ruleStart_of_run h]; rfl
  · rw [exec_start, ruleStart_of_fault h]; rfl
  · rw [exec_start, ruleStart_of_idle rfl (State.badDimension_eq_false (by decide) (by decide))] at hstart
    cases hstart
    decide

/-- The word of PIX as its opcode byte over the three components (R97). -/
theorem encode_pix_eq_append (r g b : Comp) : encode (.pix r g b) = 0x40#8 ++ r ++ g ++ b :=
  append_rgbBits 0x40#8 ⟨r, g, b⟩

theorem rulePix_of_idle {s : State} (h : s.seq = .idle) (r g b : Comp) :
    rulePix r g b s = s.takeFault .overrun (encode (.pix r g b)) := by
  simp only [rulePix, h]

theorem rulePix_of_fault {s : State} (h : s.seq = .fault) (r g b : Comp) : rulePix r g b s = s.popCmd := by
  simp only [rulePix, h, State.discard_eq]

theorem rulePix_of_run {s : State} (h : s.seq = .run) (r g b : Comp) :
    rulePix r g b s = s.popCmd.beat (nearest ⟨r, g, b⟩) := by
  simp only [rulePix, h]

theorem pixPushes_of_run {s : State} (h : s.seq = .run) : pixPushes s = s.beatPushes := by
  rw [pixPushes, (State.busy_iff s).2 h, Bool.true_and]

theorem pixPushes_of_ne_run {s : State} (h : s.seq ≠ .run) : pixPushes s = false := by
  rw [pixPushes, Bool.eq_false_iff.2 (mt (State.busy_iff s).1 h), Bool.false_and]

theorem exec_pix (r g b : Comp) (s : State) :
    exec (.pix r g b) s = whenRoom (!pixPushes s || s.outHasRoom) (rulePix r g b s) s := rfl

theorem exec_pix_of_not_pushes {s : State} (h : pixPushes s = false) (r g b : Comp) :
    exec (.pix r g b) s = .next (rulePix r g b s) := by
  rw [exec_pix, h]; rfl

theorem exec_pix_of_room {s : State} (h : s.out.length < Config.outDepth) (r g b : Comp) :
    exec (.pix r g b) s = .next (rulePix r g b s) := by
  rw [exec_pix, s.outHasRoom_iff.2 h, Bool.or_true]; rfl

/-- A beat that would push is held while OUT is full (R43). -/
theorem exec_pix_of_full {s : State} (h : pixPushes s = true) (hfull : Config.outDepth ≤ s.out.length)
    (r g b : Comp) : exec (.pix r g b) s = .next s := by
  have hroom : s.outHasRoom = false := by
    rw [← Bool.not_eq_true, State.outHasRoom_iff]; omega
  rw [exec_pix, h, hroom]; rfl

/-- The byte of a beat by the parity of XPOS (R163, R164, R175). -/
theorem State.beatByte_eq (i : PalIndex) (s : State) :
    s.beatByte i = if s.xpos.toNat % 2 = 0 then i ++ 0#4 else s.hold ++ i := by
  cases hright : s.rightPixel with
  | true =>
    have hodd := s.rightPixel_iff.1 hright
    simp [State.beatByte, hright, hodd, packByte]
  | false =>
    have heven := Nat.mod_two_ne_one.1 (mt s.rightPixel_iff.2 (Bool.eq_false_iff.1 hright))
    simp [State.beatByte, hright, heven, packByte]

/-- Every beat that pushes, as one equation: the byte, and the next column, the next row or the end of the run. -/
theorem State.beat_of_pushes (i : PalIndex) {s : State} (h : s.beatPushes = true) :
    s.beat i = { s with
      out := s.out ++ [s.beatByte i],
      bytecnt := s.bytecnt + 1,
      hold := 0,
      xpos := if s.xpos.toNat + 1 = s.width.toNat then 0 else s.xpos + 1,
      ypos :=
        if s.xpos.toNat + 1 = s.width.toNat then if s.ypos.toNat + 1 < s.height.toNat then s.ypos + 1 else 0
        else s.ypos,
      seq := if s.xpos.toNat + 1 = s.width.toNat ∧ ¬s.ypos.toNat + 1 < s.height.toNat then .idle else s.seq,
      done := if s.xpos.toNat + 1 = s.width.toNat ∧ ¬s.ypos.toNat + 1 < s.height.toNat then true else s.done } := by
  obtain hhold | ⟨-, hc⟩ | ⟨hc, hr⟩ | ⟨hc, hr⟩ := s.beat_kind
  · simp [h] at hhold
  · have hcolumn := mt s.lastColumn_iff.2 (Bool.eq_false_iff.1 hc)
    rw [State.beat_nextColumn i h hc]
    simp [hcolumn]
  · have hcolumn := s.lastColumn_iff.1 hc
    have hrow : s.ypos.toNat + 1 < s.height.toNat := Nat.not_le.1 (mt s.lastRow_iff.2 (Bool.eq_false_iff.1 hr))
    rw [State.beat_nextRow i hc hr]
    simp [hcolumn, hrow]
  · have hcolumn := s.lastColumn_iff.1 hc
    have hrow : ¬s.ypos.toNat + 1 < s.height.toNat := Nat.not_lt.2 (s.lastRow_iff.1 hr)
    rw [State.beat_endOfRun i hc hr]
    simp [hcolumn, hrow]

/-- R175 for a left pixel with a right neighbour: it is never held. -/
theorem exec_pix_hold {s : State} (hrun : s.seq = .run) (heven : s.xpos.toNat % 2 = 0)
    (hcolumn : s.xpos.toNat + 1 ≠ s.width.toNat) (r g b : Comp) :
    exec (.pix r g b) s = .next { s with cmd := s.cmd.tail, hold := nearest ⟨r, g, b⟩, xpos := s.xpos + 1 } := by
  have hpush : s.beatPushes = false := by
    rw [← Bool.not_eq_true, State.beatPushes_iff]; omega
  rw [exec_pix_of_not_pushes ((pixPushes_of_run hrun).trans hpush), rulePix_of_run hrun,
    State.beat_hold _ (s := s.popCmd) hpush]; rfl

/-- R175 for any other beat, with room in OUT. -/
theorem exec_pix_push {s : State} (hrun : s.seq = .run) (hroom : s.out.length < Config.outDepth) (r g b : Comp) :
    exec (.pix r g b) s = .next (s.popCmd.beat (nearest ⟨r, g, b⟩)) := by
  rw [exec_pix_of_room hroom, rulePix_of_run hrun]

/-- The two beats of a black and a white pixel, the whole of a 2 by 1 run (R169, R175). -/
theorem exec_pix_black_white {s t u : State} (hrun : s.seq = .run) (hw : s.width = 2) (hh : s.height = 1)
    (hx : s.xpos = 0) (hy : s.ypos = 0) (hcount : s.bytecnt = 0) (hout : s.out = [])
    (hblack : exec (.pix 0 0 0) s = .next t) (hwhite : exec (.pix 255 255 255) t = .next u) :
    t.hold = 0 ∧ t.xpos = 1 ∧ u.out = [0x0F] ∧ u.bytecnt = 1 ∧ u.xpos = 0 ∧ u.done = true ∧ u.seq = .idle := by
  rw [exec_pix_hold hrun (by simp [hx]) (by simp [hx, hw]), nearest_black] at hblack
  cases hblack
  rw [exec_pix_push, nearest_white, State.beat_of_pushes] at hwhite
  case hrun => exact hrun
  case hroom => simp [hout, Config.outDepth]
  case h => simp [State.beatPushes_iff, hx]
  cases hwhite
  simp [State.beatByte_eq, hw, hh, hx, hy, hcount, hout]

/-- Settles O19: the rule in each state; in RUN the beats that fill HOLD and those that push; the example is one of
each. -/
theorem pixCommand : Obligations.PixCommand := by
  refine ⟨fun r g b => encode_pix_eq_append r g b ▸ decode_encode (.pix r g b), fun r g b s h => ?_,
    fun r g b s h => ?_, fun r g b s h heven hcolumn => exec_pix_hold h heven hcolumn r g b,
    fun r g b s h hpush hroom => ?_, fun r g b s h hpush hfull => ?_, ?_⟩
  · rw [exec_pix_of_not_pushes (pixPushes_of_ne_run (by simp [h])), rulePix_of_idle h, encode_pix_eq_append]; rfl
  · rw [exec_pix_of_not_pushes (pixPushes_of_ne_run (by simp [h])), rulePix_of_fault h]; rfl
  · rw [exec_pix_push h hroom, State.beat_of_pushes _ (s.popCmd.beatPushes_iff.2 hpush)]
    simp only [State.beatByte_eq, State.popCmd_seq, h]; rfl
  · exact exec_pix_of_full ((pixPushes_of_run h).trans (s.beatPushes_iff.2 hpush)) hfull r g b
  · exact fun _ _ _ => exec_pix_black_white

end Sys2Proof.Machine
end

section
/-! PROOFS. What two blocks must have in common to push the same bytes (R37, R180): the words in CMD, STATE, the
dimensions, and in RUN the position and HOLD. Whatever else they hold, no word parts them. -/

namespace Sys2Proof.Machine

/-- Two blocks that push the same bytes from here on. -/
structure SameRun (s t : State) : Prop where
  cmd : t.cmd = s.cmd
  seq : t.seq = s.seq
  width : t.width = s.width
  height : t.height = s.height
  position : s.seq = .run → t.xpos = s.xpos ∧ t.ypos = s.ypos ∧ t.hold = s.hold

/-- From `s` and `t` two blocks have come to `s'` and `t'`, still alike, and have pushed the same bytes. -/
def StepsAlike (s t s' t' : State) : Prop :=
  SameRun s' t' ∧ ∃ bs, s'.out = s.out ++ bs ∧ t'.out = t.out ++ bs

theorem StepsAlike.of_silent {s t s' t' : State} (hsame : SameRun s' t') (hs : s'.out = s.out) (ht : t'.out = t.out) :
    StepsAlike s t s' t' :=
  ⟨hsame, [], by rw [hs, List.append_nil], by rw [ht, List.append_nil]⟩

theorem StepsAlike.trans {s t s' t' s'' t'' : State} (h : StepsAlike s t s' t') (h' : StepsAlike s' t' s'' t'') :
    StepsAlike s t s'' t'' := by
  obtain ⟨-, bs, hs, ht⟩ := h
  obtain ⟨hsame, bs', hs', ht'⟩ := h'
  exact ⟨hsame, bs ++ bs', by rw [hs', hs, List.append_assoc], by rw [ht', ht, List.append_assoc]⟩

section
variable {s t : State} (h : SameRun s t)
include h

theorem SameRun.popCmd : SameRun s.popCmd t.popCmd := { h with cmd := congrArg List.tail h.cmd }

theorem SameRun.stepsAlike_popCmd : StepsAlike s t s.popCmd t.popCmd := .of_silent h.popCmd rfl rfl

theorem SameRun.stepsAlike_takeFault (c : Cause) (w : Word32) :
    StepsAlike s t (s.takeFault c w) (t.takeFault c w) :=
  .of_silent ⟨h.popCmd.cmd, rfl, h.width, h.height, nofun⟩ rfl rfl

/-- A response may differ: a read shows registers that the blocks do not share (R104). -/
theorem SameRun.stepsAlike_respond (v v' : Word32) : StepsAlike s t (s.popCmd.pushRsp v) (t.popCmd.pushRsp v') :=
  .of_silent ⟨h.popCmd.cmd, h.seq, h.width, h.height, h.position⟩ rfl rfl

theorem SameRun.badDimension : t.badDimension = s.badDimension := by
  simp only [State.badDimension, h.width, h.height]

/-- A beat reads nothing but what the blocks share (R175). -/
theorem SameRun.stepsAlike_beat (hrun : s.seq = .run) (i : PalIndex) : StepsAlike s t (s.beat i) (t.beat i) := by
  obtain ⟨hx, hy, hhold⟩ := h.position hrun
  have hpush : t.beatPushes = s.beatPushes := by
    rw [Bool.eq_iff_iff, State.beatPushes_iff, State.beatPushes_iff, hx, h.width]
  have hbyte : t.beatByte i = s.beatByte i := by rw [State.beatByte_eq, State.beatByte_eq, hx, hhold]
  refine ⟨?_, _, State.beat_out i s, by rw [State.beat_out, hpush, hbyte]⟩
  cases hs : s.beatPushes with
  | false =>
    rw [State.beat_hold i hs, State.beat_hold i (hpush.trans hs)]
    exact ⟨h.cmd, h.seq, h.width, h.height, fun _ => ⟨congrArg (· + 1) hx, hy, rfl⟩⟩
  | true =>
    rw [State.beat_of_pushes i hs, State.beat_of_pushes i (hpush.trans hs)]
    simp only [hx, hy, h.width, h.height, h.seq]
    exact ⟨h.cmd, rfl, rfl, rfl, fun _ => ⟨rfl, rfl, rfl⟩⟩

/-- No command parts the two blocks. -/
theorem SameRun.stepsAlike_ruleOf (i : Instr) : StepsAlike s t (ruleOf i s) (ruleOf i t) := by
  have hpop := h.popCmd
  have hseq' := h.seq
  cases i with
  | nop => exact h.stepsAlike_popCmd
  | qry | palrd | rdreg => exact h.stepsAlike_respond _ _
  | clr => exact .of_silent ⟨hpop.cmd, rfl, h.width, h.height, nofun⟩ rfl rfl
  | setw d =>
    cases hseq : s.seq <;> simp only [ruleOf, ruleSetw, hseq', hseq, State.discard_eq]
    exacts [.of_silent ⟨hpop.cmd, h.seq, rfl, h.height, h.position⟩ rfl rfl, h.stepsAlike_takeFault _ _,
      h.stepsAlike_popCmd]
  | seth d =>
    cases hseq : s.seq <;> simp only [ruleOf, ruleSeth, hseq', hseq, State.discard_eq]
    exacts [.of_silent ⟨hpop.cmd, h.seq, h.width, rfl, h.position⟩ rfl rfl, h.stepsAlike_takeFault _ _,
      h.stepsAlike_popCmd]
  | start =>
    cases hseq : s.seq <;> simp only [ruleOf, ruleStart, hseq', hseq, State.discard_eq]
    case idle =>
      rw [h.badDimension]
      cases s.badDimension with
      | true => exact h.stepsAlike_takeFault _ _
      | false => exact .of_silent ⟨hpop.cmd, rfl, h.width, h.height, fun _ => ⟨rfl, rfl, rfl⟩⟩ rfl rfl
    case run => exact h.stepsAlike_takeFault _ _
    case fault => exact h.stepsAlike_popCmd
  | pix r g b =>
    cases hseq : s.seq <;> simp only [ruleOf, rulePix, hseq', hseq, State.discard_eq]
    case idle => exact h.stepsAlike_takeFault _ _
    case run => exact h.stepsAlike_popCmd.trans (hpop.stepsAlike_beat hseq _)
    case fault => exact h.stepsAlike_popCmd

/-- Nor does an illegal word, and so no word. -/
theorem SameRun.stepsAlike_wordRule (w : Word32) : StepsAlike s t (wordRule w s) (wordRule w t) := by
  cases hdec : decode w with
  | ok i =>
    rw [wordRule_of_decode_ok hdec, wordRule_of_decode_ok hdec]
    exact h.stepsAlike_ruleOf i
  | error e =>
    rw [wordRule_of_decode_error hdec, wordRule_of_decode_error hdec]
    obtain ⟨hfault, hs⟩ | ⟨hne, hs⟩ := s.illegalWord_cases w
    · rw [hs, State.illegalWord_of_fault (h.seq.trans hfault)]
      exact h.stepsAlike_popCmd
    · rw [hs, State.illegalWord_of_ne_fault (h.seq.trans_ne hne)]
      exact h.stepsAlike_takeFault _ _

end

/-- The words in CMD, one after another. -/
theorem SameRun.stepsAlike_drained {s t : State} (h : SameRun s t) : StepsAlike s t s.drained t.drained := by
  induction s using State.cmd_induction generalizing t with
  | nil s hcmd =>
    rw [State.drained_of_cmd_nil hcmd, State.drained_of_cmd_nil (h.cmd.trans hcmd)]
    exact .of_silent h rfl rfl
  | cons s w rest hcmd ih =>
    have hword := h.stepsAlike_wordRule w
    rw [State.drained_of_cmd_cons hcmd, State.drained_of_cmd_cons (h.cmd.trans hcmd)]
    exact hword.trans (ih hword.1)

/-- Settles O54: in IDLE the position and HOLD are not among what two blocks must share. -/
theorem runsRepeat : Obligations.RunsRepeat := by
  intro s₁ s₂ ws hidle₁ hidle₂ hwidth hheight hcmd₁ hcmd₂
  have hsame : SameRun s₁ s₂ :=
    { cmd := hcmd₂.trans hcmd₁.symm
      seq := hidle₂.trans hidle₁.symm
      width := hwidth.symm
      height := hheight.symm
      position := fun hrun => by simp [hidle₁] at hrun }
  exact hsame.stepsAlike_drained.2

end Sys2Proof.Machine
end

section
/-! PROOFS. A whole conversion (R178, R179): without its quiet words a run is START and the grid's pixels, and after
each beat the block stands in a state that the position in the grid and the bytes of `convert` determine. -/

namespace Sys2Proof.Machine

/-- The word of a PIX that carries this pixel (R97). -/
def pixelWord (p : Rgb) : Word32 := encode (.pix p.r p.g p.b)

theorem pixelOf_eq_some_iff (w : Word32) (p : Rgb) : pixelOf w = some p ↔ w = pixelWord p := by
  rw [pixelWord, eq_comm (a := w), ← decode_ok_iff, pixelOf]
  obtain ⟨r, g, b⟩ := p
  cases decode w with
  | error e => simp
  | ok i => cases i <;> simp [pixelOfCommand]

/-- A PIX is not quiet (R177). -/
theorem isQuiet_pixelWord (p : Rgb) : isQuiet (pixelWord p) = false := by
  simp [isQuiet, pixelWord, decode_encode, isQuietCommand]

/-- The words of a run without the quiet ones are the words of its pixels. -/
theorem filter_not_isQuiet_eq_map {ws : List Word32} (hws : ∀ w ∈ ws, isPix w = true ∨ isQuiet w = true) :
    (ws.filter fun w => !isQuiet w) = (ws.filterMap pixelOf).map pixelWord := by
  induction ws with
  | nil => rfl
  | cons w ws ih =>
    obtain ⟨hw, hrest⟩ := List.forall_mem_cons.1 hws
    cases hpixel : pixelOf w with
    | some p =>
      obtain rfl := (pixelOf_eq_some_iff w p).1 hpixel
      rw [List.filter_cons_of_pos (by simp [isQuiet_pixelWord]), List.filterMap_cons_some hpixel, List.map_cons,
        ih hrest]
    | none =>
      have hquiet : isQuiet w = true := hw.resolve_left (by simp [isPix, hpixel])
      rw [List.filter_cons_of_neg (by simp [hquiet]), List.filterMap_cons_none hpixel, ih hrest]

theorem wordRule_pixelWord {s : State} (hrun : s.seq = .run) (p : Rgb) :
    wordRule (pixelWord p) s = s.popCmd.beat (nearest p) := by
  rw [pixelWord, wordRule_of_decode_ok (decode_encode _)]
  exact rulePix_of_run hrun p.r p.g p.b

theorem toNat_pos_of_ne_zero {d : Dim} (hd : d ≠ 0) : 0 < d.toNat := by bv_omega

/-- ODDW is the advice on odd widths (R34, R161). -/
theorem State.oddWidth_eq_convertAdvises (s : State) : s.oddWidth = convertAdvises s.width.toNat := by
  rw [State.oddWidth, convertAdvises, BitVec.getLsbD, Nat.testBit_zero]; rfl

/-- A run begun in `s`, all its words executed, when the pixel of column `x` and row `y` is the next; with `y` at the
height the run has ended. The bytes of the rows above and of the pairs to the left are pushed, and HOLD has the left
index of a pair that is still open (R36, R178, R179). -/
def State.atPixel (grid : Nat → Nat → Rgb) (x y : Nat) (s : State) : State :=
  { s with
    cmd := []
    seq := if y < s.height.toNat then .run else .idle
    done := !decide (y < s.height.toNat)
    oddw := s.oddWidth
    xpos := BitVec.ofNat 16 x
    ypos := BitVec.ofNat 16 (if y < s.height.toNat then y else 0)
    hold := if x % 2 = 1 then nearest (grid (x - 1) y) else 0
    bytecnt := BitVec.ofNat 32 (y * rowBytes s.width.toNat + x / 2)
    out := s.out ++ (convert grid s.width.toNat s.height.toNat).take (y * rowBytes s.width.toNat + x / 2) }

section
variable (grid : Nat → Nat → Rgb) {s : State} {x y : Nat}

theorem State.atPixel_xpos_toNat (hx : x < s.width.toNat) : (s.atPixel grid x y).xpos.toNat = x :=
  (BitVec.toNat_ofNat x 16).trans (Nat.mod_eq_of_lt (hx.trans s.width.isLt))

theorem State.atPixel_ypos_toNat (hy : y < s.height.toNat) : (s.atPixel grid x y).ypos.toNat = y := by
  have hrow : (s.atPixel grid x y).ypos = BitVec.ofNat 16 y := congrArg (BitVec.ofNat 16) (if_pos hy)
  rw [hrow]
  exact (BitVec.toNat_ofNat y 16).trans (Nat.mod_eq_of_lt (hy.trans s.height.isLt))

/-- An accepted START waits for the first pixel (R173). -/
theorem State.openRun_eq_atPixel (hh : s.height ≠ 0) : s.openRun.withCmd [] = s.atPixel grid 0 0 := by
  have hpos := toNat_pos_of_ne_zero hh
  simp [State.openRun, State.withCmd, State.atPixel, hpos]

/-- The byte of a beat that pushes is that of the pair its pixel belongs to (R163, R164, R175). -/
theorem State.atPixel_beatByte (hx : x < s.width.toNat) (hpush : x % 2 = 1 ∨ x + 1 = s.width.toNat) :
    (s.atPixel grid x y).beatByte (nearest (grid x y)) = pairByte grid s.width.toNat y (x / 2) := by
  rw [State.beatByte_eq, State.atPixel_xpos_toNat grid hx, pairByte, packByte]
  obtain heven | hodd := Nat.mod_two_eq_zero_or_one x
  · have hleft : 2 * (x / 2) = x := by omega
    rw [if_pos heven, hleft, if_neg (by omega)]; rfl
  · have hleft : 2 * (x / 2) = x - 1 := by omega
    have hright : x - 1 + 1 = x := by omega
    rw [if_neg (by omega), hleft, hright, if_pos hx, State.atPixel, if_pos hodd]

/-- The pair of the pixel `(x, y)` is byte `y * ceil(W/2) + x div 2` of the conversion (R168). -/
theorem convert_take_pair {w h : Nat} (hx : x < w) (hy : y < h) :
    (convert grid w h).take (y * rowBytes w + x / 2 + 1) =
      (convert grid w h).take (y * rowBytes w + x / 2) ++ [pairByte grid w y (x / 2)] := by
  have hpair : x / 2 < rowBytes w := by unfold rowBytes; omega
  have hbyte : y * rowBytes w + x / 2 < h * rowBytes w :=
    calc y * rowBytes w + x / 2 < (y + 1) * rowBytes w := by rw [Nat.succ_mul]; omega
      _ ≤ h * rowBytes w := Nat.mul_le_mul_right _ hy
  obtain ⟨hrow, hcolumn⟩ : (y * rowBytes w + x / 2) / rowBytes w = y ∧ (y * rowBytes w + x / 2) % rowBytes w = x / 2 :=
    (Nat.div_mod_unique (Nat.zero_lt_of_lt hpair)).2 ⟨by rw [Nat.mul_comm, Nat.add_comm], hpair⟩
  rw [List.take_add_one, convert_getElem? grid hbyte, convertByte, hrow, hcolumn]; rfl

theorem State.atPixel_beatPushes_iff (hx : x < s.width.toNat) :
    (s.atPixel grid x y).beatPushes = true ↔ x % 2 = 1 ∨ x + 1 = s.width.toNat := by
  rw [State.beatPushes_iff, State.atPixel_xpos_toNat grid hx]; rfl

/-- A left pixel with a right neighbour opens a pair (R175). -/
theorem State.atPixel_beat_hold (hx : x + 1 < s.width.toNat) (heven : x % 2 = 0) :
    (s.atPixel grid x y).beat (nearest (grid x y)) = s.atPixel grid (x + 1) y := by
  have hpush : (s.atPixel grid x y).beatPushes = false := by
    rw [← Bool.not_eq_true, State.atPixel_beatPushes_iff grid (by omega)]; omega
  have hodd : (x + 1) % 2 = 1 := by omega
  have hcount : (x + 1) / 2 = x / 2 := by omega
  rw [State.beat_hold _ hpush]
  simp [State.atPixel, hodd, hcount, BitVec.ofNat_add]

/-- A right pixel before the last column closes its pair (R175). -/
theorem State.atPixel_beat_nextColumn (hx : x + 1 < s.width.toNat) (hy : y < s.height.toNat) (hodd : x % 2 = 1) :
    (s.atPixel grid x y).beat (nearest (grid x y)) = s.atPixel grid (x + 1) y := by
  have hpush : x % 2 = 1 ∨ x + 1 = s.width.toNat := .inl hodd
  have heven : ¬(x + 1) % 2 = 1 := by omega
  have hcount : (x + 1) / 2 = x / 2 + 1 := by omega
  have hcolumn : ¬x + 1 = s.width.toNat := by omega
  rw [State.beat_of_pushes _ ((State.atPixel_beatPushes_iff grid (by omega)).2 hpush),
    State.atPixel_beatByte grid (by omega) hpush, State.atPixel_xpos_toNat grid (by omega),
    State.atPixel_ypos_toNat grid hy, State.atPixel, State.atPixel, hcount, ← Nat.add_assoc,
    convert_take_pair grid (by omega) hy]
  simp [hcolumn, heven, BitVec.ofNat_add]

/-- The last pixel of a row closes the row, and in the last row the run (R175). -/
theorem State.atPixel_beat_lastColumn (hx : x + 1 = s.width.toNat) (hy : y < s.height.toNat) :
    (s.atPixel grid x y).beat (nearest (grid x y)) = s.atPixel grid 0 (y + 1) := by
  have hpush : x % 2 = 1 ∨ x + 1 = s.width.toNat := .inr hx
  have hcount : (y + 1) * rowBytes s.width.toNat + 0 / 2 = y * rowBytes s.width.toNat + x / 2 + 1 := by
    rw [Nat.succ_mul, ← hx, rowBytes]; omega
  rw [State.beat_of_pushes _ ((State.atPixel_beatPushes_iff grid (by omega)).2 hpush),
    State.atPixel_beatByte grid (by omega) hpush, State.atPixel_xpos_toNat grid (by omega),
    State.atPixel_ypos_toNat grid hy, State.atPixel, State.atPixel, hcount,
    convert_take_pair grid (by omega) hy]
  by_cases hrow : y + 1 < s.height.toNat
  · simp [hx, hy, hrow, BitVec.ofNat_add]
  · simp [hx, hrow, BitVec.ofNat_add]

/-- A beat moves to the next column, or from the last column to the next row (R62, R175). -/
theorem State.atPixel_beat (hx : x < s.width.toNat) (hy : y < s.height.toNat) :
    (s.atPixel grid x y).beat (nearest (grid x y)) =
      if x + 1 = s.width.toNat then s.atPixel grid 0 (y + 1) else s.atPixel grid (x + 1) y := by
  split
  case isTrue hlast => exact State.atPixel_beat_lastColumn grid hlast hy
  case isFalse hnext =>
    obtain heven | hodd := Nat.mod_two_eq_zero_or_one x
    · exact State.atPixel_beat_hold grid (by omega) heven
    · exact State.atPixel_beat_nextColumn grid (by omega) hy hodd

/-- The word of the next pixel makes that beat. -/
theorem State.drained_atPixel_framed (hx : x < s.width.toNat) (hy : y < s.height.toNat) :
    ((s.atPixel grid x y).framed [pixelWord (grid x y)] [] []).drained =
      if x + 1 = s.width.toNat then s.atPixel grid 0 (y + 1) else s.atPixel grid (x + 1) y := by
  have hbeat : wordRule (pixelWord (grid x y)) ((s.atPixel grid x y).framed [pixelWord (grid x y)] [] []) =
      (s.atPixel grid x y).beat (nearest (grid x y)) := wordRule_pixelWord (if_pos hy) (grid x y)
  rw [State.drained_of_cmd_cons rfl, hbeat, State.drained_of_cmd_nil (State.beat_cmd _ _),
    State.atPixel_beat grid hx hy]

/-- The end of the run: every byte is pushed and counted (R33, R178). -/
theorem State.atPixel_height (s : State) :
    s.atPixel grid 0 s.height.toNat = { s with
      cmd := [], seq := .idle, done := true, oddw := convertAdvises s.width.toNat, xpos := 0, ypos := 0, hold := 0,
      bytecnt := BitVec.ofNat 32 (s.height.toNat * rowBytes s.width.toNat),
      out := s.out ++ convert grid s.width.toNat s.height.toNat } := by
  have hall := List.take_of_length_le (convert_length grid s.width.toNat s.height.toNat).le
  simp [State.atPixel, State.oddWidth_eq_convertAdvises, hall]

end

/-- The position of the next beat (R62). -/
theorem succ_div_mod {w : Nat} (hw : 0 < w) (k : Nat) :
    (k % w + 1 = w → (k + 1) / w = k / w + 1 ∧ (k + 1) % w = 0) ∧
    (k % w + 1 ≠ w → (k + 1) / w = k / w ∧ (k + 1) % w = k % w + 1) := by
  have hdiv := Nat.mod_add_div k w
  have hlt := Nat.mod_lt k hw
  refine ⟨fun hlast => (Nat.div_mod_unique hw).2 ⟨?_, hw⟩, fun hnext => (Nat.div_mod_unique hw).2 ⟨?_, by omega⟩⟩
  · rw [Nat.mul_succ]; omega
  · omega

theorem gridPixels_succ (grid : Nat → Nat → Rgb) (w k : Nat) :
    gridPixels grid w (k + 1) = gridPixels grid w k ++ [beatPixel grid w k] := by
  rw [gridPixels, List.range_succ, List.map_append]; rfl

/-- The pixels of the first `k` beats, executed from the opening of the run, lead to the position of beat `k`. -/
theorem State.drained_gridPixels (grid : Nat → Nat → Rgb) {s : State} (hw : s.width ≠ 0) (hh : s.height ≠ 0) {k : Nat}
    (hk : k ≤ s.width.toNat * s.height.toNat) :
    (s.openRun.withCmd ((gridPixels grid s.width.toNat k).map pixelWord)).drained =
      s.atPixel grid (k % s.width.toNat) (k / s.width.toNat) := by
  have hpos := toNat_pos_of_ne_zero hw
  induction k with
  | zero =>
    rw [Nat.zero_mod, Nat.zero_div, ← State.openRun_eq_atPixel grid hh]
    exact State.drained_of_cmd_nil rfl
  | succ k ih =>
    have hx : k % s.width.toNat < s.width.toNat := Nat.mod_lt k hpos
    have hy : k / s.width.toNat < s.height.toNat := Nat.div_lt_of_lt_mul hk
    have hbehind : s.openRun.withCmd ((gridPixels grid s.width.toNat (k + 1)).map pixelWord) =
        (s.openRun.withCmd ((gridPixels grid s.width.toNat k).map pixelWord)).framed
          [pixelWord (beatPixel grid s.width.toNat k)] [] [] := by
      rw [gridPixels_succ, List.map_append]; rfl
    rw [hbehind, State.drained_framed, ih (by omega), beatPixel, State.drained_atPixel_framed grid hx hy]
    split
    case isTrue hlast =>
      obtain ⟨hrow, hcolumn⟩ := (succ_div_mod hpos k).1 hlast
      rw [hrow, hcolumn]
    case isFalse hnext =>
      obtain ⟨hrow, hcolumn⟩ := (succ_div_mod hpos k).2 hnext
      rw [hrow, hcolumn]

/-- What the block does with the words of a conversion's first `k` beats, apart from the responses. -/
theorem State.drained_conversion (grid : Nat → Nat → Rgb) {s : State} {ws : List Word32} {k : Nat}
    (hidle : s.seq = .idle) (hw : s.width ≠ 0) (hh : s.height ≠ 0) (hk : k ≤ s.width.toNat * s.height.toNat)
    (hws : ∀ w ∈ ws, isPix w = true ∨ isQuiet w = true)
    (hpixels : ws.filterMap pixelOf = gridPixels grid s.width.toNat k) :
    (s.withCmd (encode .start :: ws)).drained.withRsp s.rsp =
      s.atPixel grid (k % s.width.toNat) (k / s.width.toNat) := by
  have hstart : wordRule (encode .start) (s.withCmd (encode .start :: ws)) = s.openRun.withCmd ws := by
    rw [wordRule_of_decode_ok (decode_encode _)]
    exact ruleStart_of_idle hidle (State.badDimension_eq_false hw hh)
  rw [State.drained_of_cmd_cons rfl, hstart, State.drained_filter_not_isQuiet, filter_not_isQuiet_eq_map hws, hpixels,
    State.drained_gridPixels grid hw hh hk]; rfl

/-- The same on any schedule that ends with CMD empty, with the items the host has taken (R272). -/
theorem Link.total_of_conversion {grid : Nat → Nat → Rgb} {s : State} {es : List Event} {l : Link}
    {ws : List Word32} {k : Nat} (hidle : s.seq = .idle) (hw : s.width ≠ 0) (hh : s.height ≠ 0) (hcmd : s.cmd = [])
    (hk : k ≤ s.width.toNat * s.height.toNat) (hwords : appendedWords es = encode .start :: ws)
    (hws : ∀ w ∈ ws, isPix w = true ∨ isQuiet w = true)
    (hpixels : ws.filterMap pixelOf = gridPixels grid s.width.toNat k) (hreset : .reset ∉ es)
    (hrun : Link.run es (Link.to s) = some l) (hend : l.block.cmd = []) :
    l.total.withRsp s.rsp = s.atPixel grid (k % s.width.toNat) (k / s.width.toNat) := by
  rw [Link.total_of_run hrun hreset hend, hcmd, hwords]
  exact State.drained_conversion grid hidle hw hh hk hws hpixels

/-- The left pixel of an open pair is that of the beat before (R62). -/
theorem beatPixel_pred (grid : Nat → Nat → Rgb) {w k : Nat} (hw : 0 < w) (hpos : 0 < k % w) :
    beatPixel grid w (k - 1) = grid (k % w - 1) (k / w) := by
  have hdiv := Nat.mod_add_div k w
  have hlt := Nat.mod_lt k hw
  obtain ⟨hrow, hcolumn⟩ : (k - 1) / w = k / w ∧ (k - 1) % w = k % w - 1 :=
    (Nat.div_mod_unique hw).2 ⟨by omega, by omega⟩
  rw [beatPixel, hrow, hcolumn]

/-- Settles O53: the state at the position of beat `k`, field by field. -/
theorem prefixOfConversion : Obligations.PrefixOfConversion := by
  intro grid s es l ws k hidle hw hh hcmd hk hwords hws hpixels hreset hrun hend
  have hpos := toNat_pos_of_ne_zero hw
  have htotal := Link.total_of_conversion hidle hw hh hcmd hk hwords hws hpixels hreset hrun hend
  refine ⟨congrArg State.out htotal, fun hmore => ?_⟩
  have hx := Nat.mod_lt k hpos
  have hy : k / s.width.toNat < s.height.toNat := Nat.div_lt_of_lt_mul hmore
  have hxpos : l.block.xpos.toNat = k % s.width.toNat :=
    (congrArg (·.xpos.toNat) htotal).trans (State.atPixel_xpos_toNat grid hx)
  have hdone : l.block.done = false := (congrArg State.done htotal).trans (by simp [State.atPixel, hy])
  refine ⟨(congrArg State.seq htotal).trans (if_pos hy), hdone, hxpos,
    (congrArg (·.ypos.toNat) htotal).trans (State.atPixel_ypos_toNat grid hy), fun hodd => ?_⟩
  rw [hxpos] at hodd
  rw [beatPixel_pred grid hpos (by omega)]
  exact (congrArg State.hold htotal).trans (if_pos hodd)

/-- Settles O52: the state at the position of beat `W * H`, where the run has ended. -/
theorem commandsComputeConvert : Obligations.CommandsComputeConvert := by
  intro grid s es l ws hidle hw hh hcmd hwords hws hpixels hreset hrun hend
  have hpos := toNat_pos_of_ne_zero hw
  have htotal := Link.total_of_conversion hidle hw hh hcmd le_rfl hwords hws hpixels hreset hrun hend
  rw [Nat.mul_mod_right, Nat.mul_div_cancel_left _ hpos, State.atPixel_height] at htotal
  refine ⟨congrArg State.out htotal, congrArg State.seq htotal, congrArg State.done htotal, congrArg State.oddw htotal,
    (congrArg (·.bytecnt.toNat) htotal).trans ?_, congrArg State.xpos htotal, congrArg State.ypos htotal,
    congrArg State.hold htotal, (congrArg State.width htotal :), (congrArg State.height htotal :)⟩
  have hmax := gridBytes_le_maxBytes s.height s.width
  rw [maxBytes] at hmax
  exact (BitVec.toNat_ofNat _ 32).trans (Nat.mod_eq_of_lt (by omega))

end Sys2Proof.Machine
end

section
/-! PROOFS. The system commands NOP, RDREG and CLR in every sequencer state (R201, R202, R204), and that CLR is the only
way out of FAULT (R204, R228). -/

namespace Sys2Proof

/-- Row 0 of the opcode table is the word of NOP alone: Format N reserves every bit below the opcode (R92, R94). -/
theorem decode_error_of_opcode_zero {w : Word32} (hop : opcodeOf w = 0) (hw : w ≠ 0) : ∃ e, decode w = .error e := by
  have hhigh : w.toNat / 2 ^ 28 = 0 := by rw [← opcodeOf_toNat, hop]; rfl
  have hnum : w.toNat ≠ 0 := fun h => hw (BitVec.eq_of_toNat_eq h)
  simp only [decode, hop]
  exact (unlessReserved_formatN_error_iff w .nop).2 (by omega)

/-- The word of RDREG, for any number below its opcode and reserved field (R98). -/
theorem decode_rdregWord (n : BitVec 3) : decode (0x7#4 ++ 0#25 ++ n) = .ok (.rdreg (regOfNum n)) := by
  have h := decode_encode (.rdreg (regOfNum n))
  rwa [encode, num_regOfNum] at h

end Sys2Proof

namespace Sys2Proof.Machine

theorem exec_nop (s : State) : exec .nop s = .next s.popCmd := rfl

theorem exec_rdreg (reg : Reg) (s : State) :
    exec (.rdreg reg) s = whenRoom s.rspHasRoom (s.respond (s.readReg reg)) s := rfl

theorem exec_clr (s : State) : exec .clr s = .next s.popCmd.clearSequencer := rfl

/-- After CLR every field of STATUS is 0 (R32, R204). -/
@[simp] theorem State.clearSequencer_statusWord (s : State) : s.clearSequencer.statusWord = 0 := by
  simp only [State.statusWord, State.busy, State.faulted, State.clearSequencer_seq, State.clearSequencer_done,
    State.clearSequencer_oddw, State.clearSequencer_cause]
  decide

/-- In FAULT a word is discarded or answered; only CLR writes STATE (R204, R228). -/
theorem StepEffect.seq_of_fault {s t : State} {w : Word32} (heff : StepEffect s w t) (hfault : s.seq = .fault)
    (hne : w ≠ encode .clr) : t.seq = .fault := by
  cases heff with
  | discard | respond => exact hfault
  | fault hseq => exact absurd hfault hseq
  | setWidth _ hidle | setHeight _ hidle | openRun hidle => rw [hfault] at hidle; cases hidle
  | beat _ _ _ hrun => rw [hfault] at hrun; cases hrun
  | clear => exact absurd rfl hne

/-- No other command than CLR leaves FAULT: held, it changes nothing (R43, R204). -/
theorem exec_seq_of_fault {i : Instr} {s t : State} (hfault : s.seq = .fault) (hne : i ≠ .clr)
    (h : exec i s = .next t) : t.seq = .fault := by
  rw [exec_eq_whenRoom] at h
  obtain ⟨hroom, rfl⟩ | ⟨-, rfl⟩ := whenRoom_cases h
  · exact (stepEffect_ruleOf i hroom).seq_of_fault hfault (encode_injective.ne hne)
  · exact hfault

/-- Settles O15: the word 0, the rest of its opcode's row, and the rule. -/
theorem nopCommand : Obligations.NopCommand :=
  ⟨decode_encode .nop, fun _ hop hw => decode_error_of_opcode_zero hop hw, exec_nop⟩

/-- Settles O22: the register is pushed with room and held without; the example is a beat that fills HOLD. -/
theorem rdregCommand : Obligations.RdregCommand := by
  refine ⟨fun n => ⟨decode_rdregWord n, num_regOfNum n⟩, fun reg s hroom => ?_, fun reg s hfull => ?_,
    decode_rdregWord 0, by decide, decode_rdregWord 3, fun r g b s t hrun hw hx hpix => ?_⟩
  · rw [exec_rdreg, whenRoom_respond_of_room hroom]
    cases reg <;> rfl
  · rw [exec_rdreg, whenRoom_rsp_of_full hfull]
  · rw [exec_pix_hold hrun (by simp [hx]) (by simp [hx, hw])] at hpix
    cases hpix
    simp [State.readReg, hx]

/-- Settles O23: the rule in any state, its two examples, and the way out of FAULT. -/
theorem clrCommand : Obligations.ClrCommand := by
  refine ⟨decode_encode .clr, exec_clr, fun t h => ?_, fun s t _ _ h => ?_,
    fun i s t hfault hne h => exec_seq_of_fault hfault hne h⟩
  · rw [exec_clr] at h; cases h; rfl
  · rw [exec_clr] at h; cases h
    exact s.popCmd.clearSequencer_statusWord

end Sys2Proof.Machine
end

section
/-! PROOFS. The values a read can return (R203): STATUS in each sequencer state, and the bounds that the
invariant of R36 puts on the other registers. -/

namespace Sys2Proof.Machine

/-- The codes of R221 that a fault records. -/
theorem Cause.code_range {c : Cause} (h : c ≠ .noFault) : 1 ≤ c.code.toNat ∧ c.code.toNat ≤ 4 := by
  cases c with
  | noFault => exact absurd rfl h
  | illcmd | baddim | overrun | underrun => decide

/-- In IDLE only DONE and ODDW can be set, ODDW only with DONE (R36 (e)). -/
theorem idleInv.statusWord_mem {s : State} (hinv : idleInv s) (hseq : s.seq = .idle) :
    s.statusWord ∈ ([0x00, 0x02, 0x06] : List Word32) := by
  obtain ⟨-, -, -, hcause, -, hoddw, -⟩ := hinv
  rw [State.statusWord, State.busy, State.faulted, hseq, hcause]
  generalize s.done = done, s.oddw = oddw at hoddw ⊢
  revert done oddw
  decide

/-- In RUN only BUSY and ODDW can be set, and BUSY is (R36 (a)). -/
theorem runInv.statusWord_mem {s : State} (hinv : runInv s) (hseq : s.seq = .run) :
    s.statusWord ∈ ([0x01, 0x05] : List Word32) := by
  obtain ⟨-, -, -, -, hdone, -, hcause, -⟩ := hinv
  rw [State.statusWord, State.busy, State.faulted, hseq, hcause, hdone]
  cases s.oddw <;> decide

/-- In FAULT the code of CAUSE stands above the FAULT bit, DONE and ODDW frozen below it (R36 (f), R221). -/
theorem State.statusWord_toNat_of_fault {s : State} (hseq : s.seq = .fault) :
    s.statusWord.toNat = 0x08 + 0x10 * s.cause.code.toNat + 0x02 * s.done.toNat + 0x04 * s.oddw.toNat := by
  rw [State.statusWord, State.busy, State.faulted, hseq]
  generalize s.done = done, s.oddw = oddw, s.cause.code = code
  revert done oddw code
  decide

/-- The bounds of R203 on the position and the byte count, in every sequencer state. -/
theorem blockInv.bounds {s : State} (hinv : blockInv s) :
    (s.xpos = 0 ∨ s.xpos.toNat < s.width.toNat) ∧ (s.ypos = 0 ∨ s.ypos.toNat < s.height.toNat) ∧
    s.bytecnt.toNat ≤ maxBytes := by
  cases hseq : s.seq with
  | idle =>
    obtain ⟨hx, hy, -, -, -, -, hcount⟩ := (blockInv_of_idle hseq).1 hinv
    exact ⟨.inl hx, .inl hy, hcount⟩
  | run =>
    have hrun := (blockInv_of_run hseq).1 hinv
    have hcount := hrun.bytecnt_lt.trans_le (gridBytes_le_maxBytes _ _)
    obtain ⟨-, -, hx, hy, -⟩ := hrun
    exact ⟨.inr hx, .inr hy, hcount.le⟩
  | fault =>
    obtain ⟨-, hx, hy, hcount⟩ := (blockInv_of_fault hseq).1 hinv
    exact ⟨hx, hy, hcount⟩

/-- FCMD is 0 outside FAULT (R26). -/
theorem blockInv.fcmd_eq_zero {s : State} (hinv : blockInv s) (hne : s.seq ≠ .fault) : s.fcmd = 0 := by
  cases hseq : s.seq with
  | idle =>
    obtain ⟨-, -, -, -, hfcmd, -⟩ := (blockInv_of_idle hseq).1 hinv
    exact hfcmd
  | run =>
    obtain ⟨-, -, -, -, -, -, -, hfcmd, -⟩ := (blockInv_of_run hseq).1 hinv
    exact hfcmd
  | fault => exact absurd hseq hne

/-- The registers shorter than a response read as the numbers they hold (R21, R104). -/
theorem State.readReg_toNat (s : State) :
    (s.readReg .width).toNat = s.width.toNat ∧ (s.readReg .height).toNat = s.height.toNat ∧
    (s.readReg .xpos).toNat = s.xpos.toNat ∧ (s.readReg .ypos).toNat = s.ypos.toNat ∧
    (s.readReg .hold).toNat = s.hold.toNat := by
  refine ⟨?_, ?_, ?_, ?_, ?_⟩ <;> exact BitVec.toNat_setWidth_of_le (by decide)

/-- Settles O25: STATUS by sequencer state, WIDTH, HEIGHT and HOLD by their sizes, the rest by the invariant. -/
theorem readableValues : Obligations.ReadableValues := by
  intro s hinv
  obtain ⟨hx, hy, hcount⟩ := hinv.bounds
  obtain ⟨hwidth, hheight, hxpos, hypos, hhold⟩ := s.readReg_toNat
  rw [hwidth, hheight, hxpos, hypos, hhold]
  refine ⟨fun hseq => ((blockInv_of_idle hseq).1 hinv).statusWord_mem hseq,
    fun hseq => ((blockInv_of_run hseq).1 hinv).statusWord_mem hseq, fun hseq => ?_,
    Nat.le_of_lt_succ s.width.isLt, Nat.le_of_lt_succ s.height.isLt, hx.imp_left (congrArg BitVec.toNat),
    hy.imp_left (congrArg BitVec.toNat), Nat.le_of_lt_succ s.hold.isLt, hcount,
    fun hne => hinv.fcmd_eq_zero hne, fun hseq => ?_⟩
  · obtain ⟨hone, hfour⟩ := Cause.code_range (hinv.fault_iff.1 hseq)
    exact ⟨s.cause.code.toNat, hone, hfour, State.statusWord_toNat_of_fault hseq⟩
  · obtain ⟨hrecord, -⟩ := (blockInv_of_fault hseq).1 hinv
    exact hrecord

end Sys2Proof.Machine
end

section
/-! PROOFS. Fault entry (R221 to R227, R229): the conditions of the table as one relation, which raises exactly the
fault it names, and nothing else enters FAULT. -/

namespace Sys2Proof.Machine

/-- The table of R221: the state and the head word that raise each cause. -/
inductive FaultCondition (s : State) (w : Word32) : Cause → Prop where
  /-- An illegal word, outside FAULT (R222). -/
  | illcmd {e : IllegalWord} (hseq : s.seq ≠ .fault) (hdec : decode w = .error e) : FaultCondition s w .illcmd
  /-- START in IDLE with a zero dimension (R225). -/
  | baddim (hidle : s.seq = .idle) (hdec : decode w = .ok .start) (hdim : s.width = 0 ∨ s.height = 0) :
      FaultCondition s w .baddim
  /-- PIX in IDLE (R223). -/
  | overrun {r g b : Comp} (hidle : s.seq = .idle) (hdec : decode w = .ok (.pix r g b)) : FaultCondition s w .overrun
  /-- SETW, SETH or START in RUN (R224). -/
  | underrun {i : Instr} (hrun : s.seq = .run) (hdec : decode w = .ok i)
      (hi : (∃ d, i = .setw d) ∨ (∃ d, i = .seth d) ∨ i = .start) : FaultCondition s w .underrun

/-- Under a condition of the table the step is the fault entry of R226 and nothing else. -/
theorem step_of_faultCondition {s : State} {w : Word32} {rest : List Word32} {c : Cause} (hcmd : s.cmd = w :: rest)
    (hcond : FaultCondition s w c) :
    step s = .next { s with cmd := rest, seq := .fault, cause := c, fcmd := w } := by
  rw [← State.takeFault_of_cmd_cons hcmd]
  cases hcond with
  | illcmd hseq hdec => rw [step_of_decode_error hcmd hdec, State.illegalWord_of_ne_fault hseq]
  | baddim hidle hdec hdim =>
    rw [step_of_decode_ok hcmd hdec, exec_start, ruleStart_of_badDimension hidle (s.badDimension_iff.2 hdim),
      encode_of_decode_ok hdec]
  | overrun hidle hdec =>
    rw [step_of_decode_ok hcmd hdec, exec_pix_of_not_pushes (pixPushes_of_ne_run (by simp [hidle])),
      rulePix_of_idle hidle, encode_of_decode_ok hdec]
  | underrun hrun hdec hi =>
    rw [step_of_decode_ok hcmd hdec]
    obtain ⟨d, rfl⟩ | ⟨d, rfl⟩ | rfl := hi
    · rw [exec_setw, ruleSetw_of_run hrun, encode_of_decode_ok hdec]
    · rw [exec_seth, ruleSeth_of_run hrun, encode_of_decode_ok hdec]
    · rw [exec_start, ruleStart_of_run hrun, encode_of_decode_ok hdec]

/-- A beat raises no fault (R175). -/
theorem State.seq_of_beat_seq_fault {i : PalIndex} {s : State} (h : (s.beat i).seq = .fault) : s.seq = .fault := by
  rw [State.beat_seq] at h
  split at h
  · cases h
  · exact h

/-- A legal word whose rule enters FAULT satisfies a condition of the table. -/
theorem faultCondition_of_ruleOf {s : State} {w : Word32} {i : Instr} (hdec : decode w = .ok i)
    (hs : s.seq ≠ .fault) (ht : (ruleOf i s).seq = .fault) : ∃ c, FaultCondition s w c := by
  cases i with
  | nop | qry | palrd | rdreg => exact absurd ht hs
  | clr => cases ht
  | setw d =>
    cases hseq : s.seq with
    | idle => rw [ruleOf, ruleSetw_of_idle hseq] at ht; exact absurd ht hs
    | run => exact ⟨_, .underrun hseq hdec (.inl ⟨d, rfl⟩)⟩
    | fault => exact absurd hseq hs
  | seth d =>
    cases hseq : s.seq with
    | idle => rw [ruleOf, ruleSeth_of_idle hseq] at ht; exact absurd ht hs
    | run => exact ⟨_, .underrun hseq hdec (.inr (.inl ⟨d, rfl⟩))⟩
    | fault => exact absurd hseq hs
  | start =>
    cases hseq : s.seq with
    | idle =>
      cases hdim : s.badDimension with
      | false => rw [ruleOf, ruleStart_of_idle hseq hdim] at ht; cases ht
      | true => exact ⟨_, .baddim hseq hdec (s.badDimension_iff.1 hdim)⟩
    | run => exact ⟨_, .underrun hseq hdec (.inr (.inr rfl))⟩
    | fault => exact absurd hseq hs
  | pix r g b =>
    cases hseq : s.seq with
    | idle => exact ⟨_, .overrun hseq hdec⟩
    | run =>
      rw [ruleOf, rulePix_of_run hseq] at ht
      exact absurd (State.seq_of_beat_seq_fault ht) hs
    | fault => exact absurd hseq hs

/-- A step enters FAULT only under a condition of the table. -/
theorem faultCondition_of_step {s t : State} (h : step s = .next t) (hs : s.seq ≠ .fault) (ht : t.seq = .fault) :
    ∃ w rest c, s.cmd = w :: rest ∧ FaultCondition s w c := by
  cases hcmd : s.cmd with
  | nil => rw [step_of_cmd_nil hcmd] at h; cases h; exact absurd ht hs
  | cons w rest =>
    cases hdec : decode w with
    | error e => exact ⟨w, rest, _, rfl, .illcmd hs hdec⟩
    | ok i =>
      rw [step_of_decode_ok hcmd hdec, exec_eq_whenRoom] at h
      obtain ⟨-, rfl⟩ | ⟨-, rfl⟩ := whenRoom_cases h
      · obtain ⟨c, hcond⟩ := faultCondition_of_ruleOf hdec hs ht
        exact ⟨w, rest, c, rfl, hcond⟩
      · exact absurd ht hs

/-- Settles O39: the condition under which the step enters FAULT fixes its next state. -/
theorem everyFaultIsInTheTable : Obligations.EveryFaultIsInTheTable := by
  intro s t h hs ht
  obtain ⟨w, rest, c, hcmd, hcond⟩ := faultCondition_of_step h hs ht
  rw [step_of_faultCondition hcmd hcond] at h
  cases h
  refine ⟨w, rest, hcmd, rfl, ?_⟩
  cases hcond with
  | illcmd _ hdec => exact .inl ⟨rfl, _, hdec⟩
  | baddim hidle hdec hdim => exact .inr (.inl ⟨rfl, hidle, hdec, hdim⟩)
  | overrun hidle hdec => exact .inr (.inr (.inl ⟨rfl, hidle, _, _, _, hdec⟩))
  | underrun hrun hdec hi =>
    refine .inr (.inr (.inr ⟨rfl, hrun, ?_⟩))
    obtain ⟨d, rfl⟩ | ⟨d, rfl⟩ | rfl := hi
    · exact .inl ⟨d, hdec⟩
    · exact .inr (.inl ⟨d, hdec⟩)
    · exact .inr (.inr hdec)

/-- Settles O30: `step` as one equation. -/
theorem everyStepAnswersNext : Obligations.EveryStepAnswersNext := fun s => ⟨_, step_eq s⟩

/-- Settles O38: the fields `takeFault` writes, and the bits of STATUS they give. -/
theorem faultEntry : Obligations.FaultEntry := by
  intro c w s
  obtain ⟨hbusy, -, -, hfault, -⟩ := (s.takeFault c w).statusWord_fields
  exact ⟨rfl, hbusy, hfault⟩

end Sys2Proof.Machine
end

section
/-! PROOFS. What a step in FAULT can do (R228 to R230): a read, NOP or a discarded word keeps the sequencer registers,
and only CLR clears them. -/

namespace Sys2Proof.Machine

/-- All that an effect in FAULT can be. -/
theorem StepEffect.cases_of_fault {s t : State} {w : Word32} (heff : StepEffect s w t) (hfault : s.seq = .fault) :
    t = s.popCmd ∨ (∃ v, t = s.popCmd.pushRsp v) ∨ (w = encode .clr ∧ t = s.popCmd.clearSequencer) := by
  cases heff with
  | discard => exact .inl rfl
  | respond => exact .inr (.inl ⟨_, rfl⟩)
  | clear => exact .inr (.inr ⟨rfl, rfl⟩)
  | fault hseq => exact absurd hfault hseq
  | setWidth _ hidle | setHeight _ hidle | openRun hidle => rw [hfault] at hidle; cases hidle
  | beat _ _ _ hrun => rw [hfault] at hrun; cases hrun

/-- A step in FAULT keeps the record of the fault, or is CLR (R228, R229, R230). -/
theorem step_cases_of_fault {s t : State} (hfault : s.seq = .fault) (h : step s = .next t) :
    (t.seq = .fault ∧ t.cause = s.cause ∧ t.fcmd = s.fcmd) ∨
    ∃ rest, s.cmd = encode .clr :: rest ∧ t = { s with cmd := rest }.clearSequencer := by
  obtain rfl | ⟨w, rest, hcmd, heff⟩ := step_cases h
  · exact .inl ⟨hfault, rfl, rfl⟩
  obtain rfl | ⟨v, rfl⟩ | ⟨rfl, rfl⟩ := heff.cases_of_fault hfault
  · exact .inl ⟨hfault, rfl, rfl⟩
  · exact .inl ⟨hfault, rfl, rfl⟩
  · exact .inr ⟨rest, hcmd, by rw [State.popCmd_of_cmd_cons hcmd]⟩

/-- Settles O40: no fault in FAULT, each other condition of the table, and two words that resemble START and PIX. -/
theorem faultPriority : Obligations.FaultPriority := by
  refine ⟨fun s t hfault h => ?_,
    fun _ _ _ _ hcmd hseq hdec => step_of_faultCondition hcmd (.illcmd hseq hdec),
    fun _ _ _ _ _ _ hcmd hidle hdec => step_of_faultCondition hcmd (.overrun hidle hdec),
    fun _ _ _ _ hcmd hrun hdec hi => step_of_faultCondition hcmd (.underrun hrun hdec hi),
    fun _ _ _ hcmd hidle hdec hdim => step_of_faultCondition hcmd (.baddim hidle hdec hdim),
    ⟨_, rfl⟩, ⟨_, rfl⟩⟩
  obtain hkept | ⟨rest, hcmd, -⟩ := step_cases_of_fault hfault h
  · exact .inl hkept
  · exact .inr ⟨rest, hcmd⟩

/-- In FAULT no command is held but a read without room in RSP (R43, R228). -/
theorem commandRoom_of_fault {i : Instr} {s : State} (hfault : s.seq = .fault)
    (hroom : s.rsp.length < Config.rspDepth) : commandRoom i s = true := by
  rw [commandRoom, pixPushes_of_ne_run (by simp [hfault]), s.rspHasRoom_iff.2 hroom]; simp

/-- In FAULT a command other than NOP, a read or CLR only leaves CMD (R228). -/
theorem exec_of_fault_discards {i : Instr} {s : State} (hfault : s.seq = .fault) (hquiet : isQuietCommand i = false)
    (hne : i ≠ .clr) : exec i s = .next s.popCmd := by
  cases i with
  | nop | qry | palrd | rdreg => cases hquiet
  | clr => exact absurd rfl hne
  | setw d => rw [exec_setw, ruleSetw_of_fault hfault]
  | seth d => rw [exec_seth, ruleSeth_of_fault hfault]
  | start => rw [exec_start, ruleStart_of_fault hfault]
  | pix r g b => rw [exec_pix_of_not_pushes (pixPushes_of_ne_run (by simp [hfault])), rulePix_of_fault hfault]

theorem isQuiet_of_decode_ok {w : Word32} {i : Instr} (hdec : decode w = .ok i) : isQuiet w = isQuietCommand i := by
  simp only [isQuiet, hdec]

/-- Settles O41: the commands that execute, the words that are discarded, and the record that stays. -/
theorem faultStateDiscards : Obligations.FaultStateDiscards := by
  intro s w rest hcmd hfault
  refine ⟨fun i hdec _ => ⟨step_of_decode_ok hcmd hdec, fun hroom => ?_⟩, fun hother => ?_, fun t h hne => ?_⟩
  · rw [step_of_decode_ok hcmd hdec, exec_eq_whenRoom, commandRoom_of_fault hfault hroom]; rfl
  · rw [← State.popCmd_of_cmd_cons hcmd]
    cases hdec : decode w with
    | error e => rw [step_of_decode_error hcmd hdec, State.illegalWord_of_fault hfault]
    | ok i =>
      obtain ⟨hquiet, hclr⟩ := hother i hdec
      rw [isQuiet_of_decode_ok hdec] at hquiet
      rw [step_of_decode_ok hcmd hdec, exec_of_fault_discards hfault hquiet hclr]
  · obtain hkept | ⟨rest', hclr, -⟩ := step_cases_of_fault hfault h
    · exact hkept
    · obtain ⟨rfl, -⟩ := List.cons.inj (hcmd.symm.trans hclr)
      exact absurd rfl (hne .clr (decode_encode .clr))

/-- Settles O42: of the two outcomes of a step in FAULT only CLR leaves it; CLR and reset write IDLE. -/
theorem onlyClrLeavesFault : Obligations.OnlyClrLeavesFault := by
  refine ⟨fun s t h hfault hleft => ?_, fun s t rest hcmd h => ?_, fun l l' h => ?_, fun s t h hfault hstay => ?_⟩
  · obtain ⟨hstay, -⟩ | ⟨rest, hcmd, rfl⟩ := step_cases_of_fault hfault h
    · exact absurd hstay hleft
    · exact ⟨rest, hcmd, rfl⟩
  · rw [step_of_decode_ok hcmd (decode_encode .clr), exec_clr] at h
    cases h; rfl
  · rw [Link.after_reset h]; rfl
  · obtain ⟨-, hrecord⟩ | ⟨rest, -, rfl⟩ := step_cases_of_fault hfault h
    · exact hrecord
    · cases hstay

end Sys2Proof.Machine
end

section
/-! PROOFS. Reset (R260, R261): the state it gives, and that of the other events only the host's removals take an item
out of OUT or RSP. -/

namespace Sys2Proof.Machine

/-- Settles O26: the fields of the reset state, and the inversion of the reset event. -/
theorem resetValues : Obligations.ResetValues := by
  refine ⟨rfl, rfl, rfl, rfl, rfl, rfl, rfl, rfl, rfl, rfl, rfl, ?_, rfl, rfl, rfl, fun l l' h => ?_⟩
  · exact State.reset.clearSequencer_statusWord
  · rw [Link.after_reset h]

/-- A channel that keeps its contents has nothing taken out. -/
theorem exists_eq_append_of_eq {α : Type} {q q' : List α} (h : q' = q) : ∃ xs, q' = q ++ xs := ⟨[], by simp [h]⟩

/-- A step takes nothing out of OUT or RSP (R41). -/
theorem step_appends {s t : State} (h : step s = .next t) :
    (∃ bs, t.out = s.out ++ bs) ∧ ∃ vs, t.rsp = s.rsp ++ vs := by
  obtain ⟨hqueues, -⟩ := channelsAreQueues
  obtain rfl | ⟨w, bs, vs, -, hout, hrsp, -⟩ := hqueues s t h
  · exact ⟨exists_eq_append_of_eq rfl, exists_eq_append_of_eq rfl⟩
  · exact ⟨⟨bs, hout⟩, ⟨vs, hrsp⟩⟩

/-- Settles O27: reset asks nothing of the state, a step appends, and each act of the host writes one channel. -/
theorem resetAnywhere : Obligations.ResetAnywhere := by
  refine ⟨fun _ => rfl, fun e l l' h hreset => ?_⟩
  cases e with
  | step =>
    obtain ⟨hbytes, hwords⟩ := step_appends (Link.after_step h).1
    exact ⟨fun _ => hbytes, fun _ => hwords⟩
  | append w =>
    obtain ⟨-, rfl⟩ := Link.after_append h
    exact ⟨fun _ => exists_eq_append_of_eq rfl, fun _ => exists_eq_append_of_eq rfl⟩
  | takeOut =>
    obtain ⟨b, q, -, rfl⟩ := Link.after_takeOut h
    exact ⟨fun hne => absurd rfl hne, fun _ => exists_eq_append_of_eq rfl⟩
  | takeRsp =>
    obtain ⟨v, q, -, rfl⟩ := Link.after_takeRsp h
    exact ⟨fun _ => exists_eq_append_of_eq rfl, fun hne => absurd rfl hne⟩
  | reset => exact absurd rfl hreset

end Sys2Proof.Machine
end

section
/-! PROOFS. What a schedule can and cannot change: capacities and the order of events change no result (R272), and
which words must come before START after reset (R265). -/

namespace Sys2Proof.Machine

/-- Settles O50: every event but reset keeps the outcome of the words in CMD and those to come (`Link.outcome_after`),
and with CMD empty and nothing to come the outcome is what the block has pushed. -/
theorem schedulesAgree : Obligations.SchedulesAgree :=
  fun _ _ _ hrun hreset hcmd => Link.total_of_run hrun hreset hcmd

section
variable {s : State} {rest : List Word32}

/-- SETW at the head of CMD in IDLE (R171). -/
theorem step_setw_of_idle {d : Dim} (hcmd : s.cmd = encode (.setw d) :: rest) (hidle : s.seq = .idle) :
    step s = .next { s with cmd := rest, width := d } := by
  rw [step_of_decode_ok hcmd (decode_encode _), exec_setw, ruleSetw_of_idle hidle, State.popCmd_of_cmd_cons hcmd]

/-- SETH at the head of CMD in IDLE (R172). -/
theorem step_seth_of_idle {d : Dim} (hcmd : s.cmd = encode (.seth d) :: rest) (hidle : s.seq = .idle) :
    step s = .next { s with cmd := rest, height := d } := by
  rw [step_of_decode_ok hcmd (decode_encode _), exec_seth, ruleSeth_of_idle hidle, State.popCmd_of_cmd_cons hcmd]

/-- START at the head of CMD in IDLE with a zero dimension (R173, R225). -/
theorem step_start_of_zero_dimension (hcmd : s.cmd = encode .start :: rest) (hidle : s.seq = .idle)
    (hdim : s.width = 0 ∨ s.height = 0) :
    step s = .next { s with cmd := rest, seq := .fault, cause := .baddim, fcmd := 0x30000000 } :=
  step_of_faultCondition hcmd (.baddim hidle (decode_encode .start) hdim)

/-- START at the head of CMD in IDLE with both dimensions set (R173). -/
theorem step_start_of_idle (hcmd : s.cmd = encode .start :: rest) (hidle : s.seq = .idle) (hw : s.width ≠ 0)
    (hh : s.height ≠ 0) : step s = .next { s with cmd := rest }.openRun := by
  rw [step_of_decode_ok hcmd (decode_encode _), exec_start,
    ruleStart_of_idle hidle (State.badDimension_eq_false hw hh), State.popCmd_of_cmd_cons hcmd]

/-- A quiet command needs room in RSP at most (R43). -/
theorem commandRoom_of_isQuietCommand {i : Instr} (hquiet : isQuietCommand i = true)
    (hroom : s.rsp.length < Config.rspDepth) : commandRoom i s = true := by
  have hpix : pixelOfCommand i = none := by
    cases i with
    | nop | qry | palrd | rdreg => rfl
    | setw | seth | start | pix | clr => cases hquiet
  rw [commandRoom, hpix, s.rspHasRoom_iff.2 hroom]; simp

/-- The rule of a quiet command takes its word and pushes its response, if it has one (R101, R177). -/
theorem ruleOf_of_isQuietCommand {i : Instr} (hquiet : isQuietCommand i = true) (s : State) :
    ruleOf i s = { s with cmd := s.cmd.tail, rsp := s.rsp ++ (responseOf i s).toList } := by
  obtain ⟨hcmd, hrsp⟩ := ruleOf_cmd_rsp i s
  rw [← hcmd, ← hrsp]
  exact congrArg (fun t : State => { t with cmd := (ruleOf i s).cmd, rsp := (ruleOf i s).rsp })
    (ruleOf_frame_of_isQuietCommand hquiet s)

/-- A quiet command at the head of CMD, RSP having room, works in every sequencer state (R177). -/
theorem step_of_isQuietCommand {i : Instr} (hcmd : s.cmd = encode i :: rest) (hquiet : isQuietCommand i = true)
    (hroom : s.rsp.length < Config.rspDepth) :
    step s = .next { s with cmd := rest, rsp := s.rsp ++ (responseOf i s).toList } := by
  rw [step_of_decode_ok hcmd (decode_encode i), exec_eq_whenRoom, commandRoom_of_isQuietCommand hquiet hroom,
    ruleOf_of_isQuietCommand hquiet, hcmd]; rfl

end

/-- The words queued behind a command do not show in its response (R102 to R104). -/
theorem responseOf_framed (ws : List Word32) (bs : List Byte) (vs : List Word32) (i : Instr) (s : State) :
    responseOf i (s.framed ws bs vs) = responseOf i s := by
  rw [← wordResponse_of_decode_ok (decode_encode i), wordResponse_framed, wordResponse_of_decode_ok (decode_encode i)]

/-- Settles O28: the reset state is in IDLE with both dimensions 0, so each word in turn is SETW, SETH, START or a
quiet command in a state whose dimensions are known. -/
theorem initialisationNeeded : Obligations.InitialisationNeeded := by
  refine ⟨fun rest => ?_, fun w rest => ?_, fun h rest => ?_, fun w h rest hw hh => ?_, fun w h rest hw hh => ?_,
    fun i rest hquiet => ?_⟩
  · exact step_start_of_zero_dimension rfl rfl (.inl rfl)
  · exact ⟨_, step_setw_of_idle rfl rfl, step_start_of_zero_dimension rfl rfl (.inr rfl)⟩
  · exact ⟨_, step_seth_of_idle rfl rfl, step_start_of_zero_dimension rfl rfl (.inl rfl)⟩
  · exact ⟨_, _, step_setw_of_idle rfl rfl, step_seth_of_idle rfl rfl, step_start_of_idle rfl rfl hw hh⟩
  · exact ⟨_, _, step_seth_of_idle rfl rfl, step_setw_of_idle rfl rfl, step_start_of_idle rfl rfl hw hh⟩
  · rw [← responseOf_framed (encode i :: rest) [] [] i State.reset]
    exact step_of_isQuietCommand rfl hquiet (Nat.succ_pos _)

end Sys2Proof.Machine
end
